-- ==== Sys2Proof/Word.lean ====
section
/-! DEFINITION. The word types of the machine and the register-number types (`10_state.md` R21, R24, R30). -/

namespace Sys2Proof

/-- One byte, the unit of memory (R60). -/
abbrev Byte := BitVec 8

/-- A 64-bit quantity: a general register, the instruction pointer, a linear address (R30, R33, R60). -/
abbrev Word := BitVec 64

/-- Number of an XMM/YMM register: 16 of them (R21). -/
abbrev VecReg := Fin 16

/-- Number of a general register: 16 of them (R30). -/
abbrev GenReg := Fin 16

/-- Number of an MMX register: 8 of them, a 3-bit field alone (R24). -/
abbrev MmxReg := Fin 8

end Sys2Proof
end

