-- ==== Sys2Proof/Syntax.lean ====
section
/-! DEFINITION. Instructions as syntax: one constructor of `Instr` for each of the 26 rows of `spec/opcode_table.json`
(`30_encoding.md` R118), and the operand forms those rows share (R90, R104 to R109). An `Instr` holds every choice of the
encoding that can be observed, its length included. -/

namespace Sys2Proof

/-- A segment register, named by an override prefix (R93) or as the default of an address (R109). -/
inductive Seg where
  | cs | ss | ds | es | fs | gs
deriving DecidableEq, Repr

/-- SIB scale factor (R108). -/
inductive Scale where
  | x1 | x2 | x4 | x8
deriving DecidableEq, Repr

/-- Displacement of an address that also has a base: absent, one byte or four bytes (R107, R109). -/
inductive Disp where
  | none
  | disp8 (v : BitVec 8)
  | disp32 (v : BitVec 32)
deriving DecidableEq, Repr

/-- Memory operand forms of R107 and R108. -/
inductive Mem where
  /-- Base register without a SIB byte. -/
  | based (base : GenReg) (disp : Disp)
  /-- SIB byte with a base register, and an index unless `index = 100b`. -/
  | sib (base : GenReg) (index : Option (GenReg × Scale)) (disp : Disp)
  /-- SIB byte with `base = 101b` and `mod = 00b`: no base, disp32. -/
  | sibNoBase (index : Option (GenReg × Scale)) (disp : BitVec 32)
  /-- `mod = 00b`, `rm = 101b` in 64-bit mode: RIP-relative (R71). -/
  | ripRel (disp : BitVec 32)
  /-- `mod = 00b`, `rm = 101b` outside 64-bit mode: no base, no index, disp32. -/
  | abs (disp : BitVec 32)
deriving DecidableEq, Repr

/-- Operand 2, "ModRM:r/m (r)" (R106): a register of a file of `n` registers, or memory. -/
inductive RM (n : Nat) where
  | reg (r : Fin n)
  | mem (m : Mem)
deriving DecidableEq, Repr

/-- What may surround a legacy-shape opcode without changing which row it is (R90, R93, R97). -/
structure LegacyEnc where
  /-- The segment-override prefix, if any (R93, R95). -/
  seg : Option Seg
  /-- Is the address-size prefix `67` there? (R95) -/
  addr32 : Bool
  /-- Is a REX byte there? (R97) -/
  rex : Bool
deriving DecidableEq, Repr

/-- What may surround a VEX-shape opcode without changing which row it is (R90, R99 to R101). -/
structure VexEnc where
  /-- The segment-override prefix, if any (R101). -/
  seg : Option Seg
  /-- Is the address-size prefix `67` there? (R101) -/
  addr32 : Bool
  /-- `true`: the three-byte prefix `C4`. `false`: the two-byte prefix `C5` (R99, R100). -/
  three : Bool
deriving DecidableEq, Repr

/-- The 26 instruction forms of R118, in the order of its rows. `d` is operand 1 ("ModRM:reg (w)", R105), `src` operand 2. -/
inductive Instr where
  /-- Row 1, CVTDQ2PD xmm1, xmm2/m64 (R181). -/
  | cvtdq2pd (e : LegacyEnc) (d : VecReg) (src : RM 16)
  /-- Row 2, VCVTDQ2PD xmm1, xmm2/m64 (R182). -/
  | vcvtdq2pd128 (e : VexEnc) (d : VecReg) (src : RM 16)
  /-- Row 3, VCVTDQ2PD ymm1, xmm2/m128 (R183). -/
  | vcvtdq2pd256 (e : VexEnc) (d : VecReg) (src : RM 16)
  /-- Row 4, CVTDQ2PS xmm1, xmm2/m128 (R184). -/
  | cvtdq2ps (e : LegacyEnc) (d : VecReg) (src : RM 16)
  /-- Row 5, VCVTDQ2PS xmm1, xmm2/m128 (R185). -/
  | vcvtdq2ps128 (e : VexEnc) (d : VecReg) (src : RM 16)
  /-- Row 6, VCVTDQ2PS ymm1, ymm2/m256 (R186). -/
  | vcvtdq2ps256 (e : VexEnc) (d : VecReg) (src : RM 16)
  /-- Row 7, CVTPD2DQ xmm1, xmm2/m128 (R200). -/
  | cvtpd2dq (e : LegacyEnc) (d : VecReg) (src : RM 16)
  /-- Row 8, VCVTPD2DQ xmm1, xmm2/m128 (R201). -/
  | vcvtpd2dq128 (e : VexEnc) (d : VecReg) (src : RM 16)
  /-- Row 9, VCVTPD2DQ xmm1, ymm2/m256 (R202). -/
  | vcvtpd2dq256 (e : VexEnc) (d : VecReg) (src : RM 16)
  /-- Row 10, CVTPD2PI mm, xmm/m128 (R203). -/
  | cvtpd2pi (e : LegacyEnc) (d : MmxReg) (src : RM 16)
  /-- Row 11, CVTPD2PS xmm1, xmm2/m128 (R204). -/
  | cvtpd2ps (e : LegacyEnc) (d : VecReg) (src : RM 16)
  /-- Row 12, VCVTPD2PS xmm1, xmm2/m128 (R205). -/
  | vcvtpd2ps128 (e : VexEnc) (d : VecReg) (src : RM 16)
  /-- Row 13, VCVTPD2PS xmm1, ymm2/m256 (R206). -/
  | vcvtpd2ps256 (e : VexEnc) (d : VecReg) (src : RM 16)
  /-- Row 14, CVTPI2PD xmm, mm/m64 (R220). -/
  | cvtpi2pd (e : LegacyEnc) (d : VecReg) (src : RM 8)
  /-- Row 15, CVTPI2PS xmm, mm/m64 (R221). -/
  | cvtpi2ps (e : LegacyEnc) (d : VecReg) (src : RM 8)
  /-- Row 16, CVTPS2DQ xmm1, xmm2/m128 (R230). -/
  | cvtps2dq (e : LegacyEnc) (d : VecReg) (src : RM 16)
  /-- Row 17, VCVTPS2DQ xmm1, xmm2/m128 (R231). -/
  | vcvtps2dq128 (e : VexEnc) (d : VecReg) (src : RM 16)
  /-- Row 18, VCVTPS2DQ ymm1, ymm2/m256 (R232). -/
  | vcvtps2dq256 (e : VexEnc) (d : VecReg) (src : RM 16)
  /-- Row 19, CVTPS2PD xmm1, xmm2/m64 (R233). -/
  | cvtps2pd (e : LegacyEnc) (d : VecReg) (src : RM 16)
  /-- Row 20, VCVTPS2PD xmm1, xmm2/m64 (R234). -/
  | vcvtps2pd128 (e : VexEnc) (d : VecReg) (src : RM 16)
  /-- Row 21, VCVTPS2PD ymm1, xmm2/m128 (R235). -/
  | vcvtps2pd256 (e : VexEnc) (d : VecReg) (src : RM 16)
  /-- Row 22, CVTPS2PI mm, xmm/m64 (R236). -/
  | cvtps2pi (e : LegacyEnc) (d : MmxReg) (src : RM 16)
  /-- Row 23, CVTSD2SI r32, xmm/m64 (R250). -/
  | cvtsd2si32 (e : LegacyEnc) (d : GenReg) (src : RM 16)
  /-- Row 24, CVTSD2SI r64, xmm/m64 (R251). -/
  | cvtsd2si64 (e : LegacyEnc) (d : GenReg) (src : RM 16)
  /-- Row 25, VCVTSD2SI r32, xmm1/m64 (R252). -/
  | vcvtsd2si32 (e : VexEnc) (d : GenReg) (src : RM 16)
  /-- Row 26, VCVTSD2SI r64, xmm1/m64 (R253). -/
  | vcvtsd2si64 (e : VexEnc) (d : GenReg) (src : RM 16)
deriving DecidableEq, Repr

/-- Why a byte sequence has no meaning in this spec (R16, R122). A refusal says nothing of what the processor does: safe. -/
inductive DecodeRefusal where
  /-- The bytes are not one of the 26 forms (R122, R6 (a)). -/
  | notInSpec
  /-- More than one byte out of `66`, `F2`, `F3` (R94). -/
  | severalMandatoryPrefixes
  /-- More than one segment-override byte (R95). -/
  | severalSegmentPrefixes
  /-- More than one `67` byte (R95). -/
  | severalAddressSizePrefixes
  /-- `67` outside 64-bit mode: 16-bit addressing (R95). -/
  | addressSize16
  /-- A REX byte followed by another prefix byte (R97). -/
  | rexNotLast
  /-- `C4`/`C5` outside 64-bit mode that begin LES or LDS (R102). -/
  | lesOrLds
deriving DecidableEq, Repr

end Sys2Proof
end

