-- ==== Sys2Proof/WellFormed.lean ====
section
/-! DEFINITION. Which instructions an encoding exists for, in 64-bit mode (`m64 = true`) and outside it
(`30_encoding.md` R93 to R109). Each check is a Bool, so that `decide` evaluates it. -/

namespace Sys2Proof

/-- Register numbers 8 to 15 need the extension bit that only 64-bit mode has (R21, R30, R97, R102). -/
def regOk (ext : Bool) (r : Fin 16) : Bool := ext || decide (r.val < 8)

/-- A SIB index: number 4 stands for "no index" and cannot be one (R108). -/
def indexOk (ext : Bool) : Option (GenReg × Scale) → Bool
  | none => true
  | some (r, _) => decide (r.val ≠ 4) && regOk ext r

/-- With `mod = 00b` the base field `101b` does not name a register (R107, R108). -/
def Disp.okWithBase (d : Disp) (base : GenReg) : Bool :=
  decide (d ≠ .none) || decide (base.val % 8 ≠ 5)

/-- Memory operands that an encoding exists for; `ext` says whether register numbers above 7 can be named (R107, R108). -/
def Mem.wf (m64 ext : Bool) : Mem → Bool
  | .based b d => decide (b.val % 8 ≠ 4) && d.okWithBase b && regOk ext b
  | .sib b i d => d.okWithBase b && regOk ext b && indexOk ext i
  | .sibNoBase i _ => indexOk ext i
  | .ripRel _ => m64
  | .abs _ => !m64

/-- Operand 2 of a form whose register source is an XMM or YMM register (R106). -/
def rmVecWf (m64 ext : Bool) : RM 16 → Bool
  | .reg r => regOk ext r
  | .mem m => m.wf m64 ext

/-- Operand 2 of a form whose register source is an MMX register (R106). -/
def rmMmxWf (m64 ext : Bool) : RM 8 → Bool
  | .reg _ => true
  | .mem m => m.wf m64 ext

/-- Outside 64-bit mode there is no REX byte and `67` is refused (R95, R97). -/
def LegacyEnc.wf (m64 : Bool) (e : LegacyEnc) : Bool := m64 || (!e.rex && !e.addr32)

/-- Outside 64-bit mode `67` is refused (R95). -/
def VexEnc.wf (m64 : Bool) (e : VexEnc) : Bool := m64 || !e.addr32

/-- A legacy form with an XMM or general destination and an XMM source: a REX byte carries the extension bits (R97). -/
def legacyWf (m64 : Bool) (e : LegacyEnc) (d : Fin 16) (src : RM 16) : Bool :=
  e.wf m64 && regOk e.rex d && rmVecWf m64 e.rex src

/-- A legacy form with an MMX destination (R105). -/
def legacyMmxDstWf (m64 : Bool) (e : LegacyEnc) (src : RM 16) : Bool :=
  e.wf m64 && rmVecWf m64 e.rex src

/-- A legacy form with an MMX source (R106). -/
def legacyMmxSrcWf (m64 : Bool) (e : LegacyEnc) (d : Fin 16) (src : RM 8) : Bool :=
  e.wf m64 && regOk e.rex d && rmMmxWf m64 e.rex src

/-- A VEX form: both prefixes carry `R`, only the three-byte one carries `X` and `B` (R99, R100, R102). -/
def vexWf (m64 : Bool) (e : VexEnc) (d : Fin 16) (src : RM 16) : Bool :=
  e.wf m64 && regOk m64 d && rmVecWf m64 (m64 && e.three) src

/-- The instructions that some byte sequence encodes in the given mode (R90 to R109, R118, R120). -/
def Instr.wf (m64 : Bool) : Instr → Bool
  | .cvtdq2pd e d src => legacyWf m64 e d src
  | .vcvtdq2pd128 e d src => vexWf m64 e d src
  | .vcvtdq2pd256 e d src => vexWf m64 e d src
  | .cvtdq2ps e d src => legacyWf m64 e d src
  | .vcvtdq2ps128 e d src => vexWf m64 e d src
  | .vcvtdq2ps256 e d src => vexWf m64 e d src
  | .cvtpd2dq e d src => legacyWf m64 e d src
  | .vcvtpd2dq128 e d src => vexWf m64 e d src
  | .vcvtpd2dq256 e d src => vexWf m64 e d src
  | .cvtpd2pi e _ src => legacyMmxDstWf m64 e src
  | .cvtpd2ps e d src => legacyWf m64 e d src
  | .vcvtpd2ps128 e d src => vexWf m64 e d src
  | .vcvtpd2ps256 e d src => vexWf m64 e d src
  | .cvtpi2pd e d src => legacyMmxSrcWf m64 e d src
  | .cvtpi2ps e d src => legacyMmxSrcWf m64 e d src
  | .cvtps2dq e d src => legacyWf m64 e d src
  | .vcvtps2dq128 e d src => vexWf m64 e d src
  | .vcvtps2dq256 e d src => vexWf m64 e d src
  | .cvtps2pd e d src => legacyWf m64 e d src
  | .vcvtps2pd128 e d src => vexWf m64 e d src
  | .vcvtps2pd256 e d src => vexWf m64 e d src
  | .cvtps2pi e _ src => legacyMmxDstWf m64 e src
  | .cvtsd2si32 e d src => legacyWf m64 e d src
  | .cvtsd2si64 e d src => m64 && e.rex && legacyWf m64 e d src
  | .vcvtsd2si32 e d src => vexWf m64 e d src
  | .vcvtsd2si64 e d src => m64 && e.three && vexWf m64 e d src

end Sys2Proof
end

