-- ==== Sys2Proof/Decode.lean ====
section
/-! DEFINITION. The decoder (total on any bytes, `30_encoding.md` R90 to R123) and, after it, the encoder written from the
same table. `m64` is `Mode64` of `00_scope.md` R7. -/

namespace Sys2Proof

/-- The 26 rows of `spec/opcode_table.json`, without operands (R118). -/
inductive Form where
  | cvtdq2pd | vcvtdq2pd128 | vcvtdq2pd256
  | cvtdq2ps | vcvtdq2ps128 | vcvtdq2ps256
  | cvtpd2dq | vcvtpd2dq128 | vcvtpd2dq256
  | cvtpd2pi
  | cvtpd2ps | vcvtpd2ps128 | vcvtpd2ps256
  | cvtpi2pd | cvtpi2ps
  | cvtps2dq | vcvtps2dq128 | vcvtps2dq256
  | cvtps2pd | vcvtps2pd128 | vcvtps2pd256
  | cvtps2pi
  | cvtsd2si32 | cvtsd2si64 | vcvtsd2si32 | vcvtsd2si64
deriving DecidableEq, Repr

/-- The rows in the table's order. -/
def Form.all : List Form :=
  [.cvtdq2pd, .vcvtdq2pd128, .vcvtdq2pd256, .cvtdq2ps, .vcvtdq2ps128, .vcvtdq2ps256] ++
  [.cvtpd2dq, .vcvtpd2dq128, .vcvtpd2dq256, .cvtpd2pi, .cvtpd2ps, .vcvtpd2ps128, .vcvtpd2ps256] ++
  [.cvtpi2pd, .cvtpi2ps, .cvtps2dq, .vcvtps2dq128, .vcvtps2dq256] ++
  [.cvtps2pd, .vcvtps2pd128, .vcvtps2pd256, .cvtps2pi] ++
  [.cvtsd2si32, .cvtsd2si64, .vcvtsd2si32, .vcvtsd2si64]

/-- The row's `match` over the 18-bit decode key `enc W L pp map opcode` (R111, `opcode_table.json`). -/
def Form.bits : Form → BitVec 18
  | .cvtdq2pd => 0x041E6#18
  | .vcvtdq2pd128 => 0x241E6#18
  | .vcvtdq2pd256 => 0x2C1E6#18
  | .cvtdq2ps => 0x0015B#18
  | .vcvtdq2ps128 => 0x2015B#18
  | .vcvtdq2ps256 => 0x2815B#18
  | .cvtpd2dq => 0x061E6#18
  | .vcvtpd2dq128 => 0x261E6#18
  | .vcvtpd2dq256 => 0x2E1E6#18
  | .cvtpd2pi => 0x0212D#18
  | .cvtpd2ps => 0x0215A#18
  | .vcvtpd2ps128 => 0x2215A#18
  | .vcvtpd2ps256 => 0x2A15A#18
  | .cvtpi2pd => 0x0212A#18
  | .cvtpi2ps => 0x0012A#18
  | .cvtps2dq => 0x0215B#18
  | .vcvtps2dq128 => 0x2215B#18
  | .vcvtps2dq256 => 0x2A15B#18
  | .cvtps2pd => 0x0015A#18
  | .vcvtps2pd128 => 0x2015A#18
  | .vcvtps2pd256 => 0x2815A#18
  | .cvtps2pi => 0x0012D#18
  | .cvtsd2si32 => 0x0612D#18
  | .cvtsd2si64 => 0x1612D#18
  | .vcvtsd2si32 => 0x2612D#18
  | .vcvtsd2si64 => 0x3612D#18

/-- The row's `mask`: bit 16 (`W`) is dropped where `W` is ignored, bit 15 (`L`) on the two `LIG` rows (R111). -/
def Form.mask : Form → BitVec 18
  | .cvtsd2si32 | .cvtsd2si64 => 0x3FFFF#18
  | .vcvtsd2si32 | .vcvtsd2si64 => 0x37FFF#18
  | _ => 0x2FFFF#18

/-- Selects the row of a decode key (R111). -/
def selectForm (key : BitVec 18) : Option Form :=
  Form.all.find? fun f => decide (key &&& f.mask = f.bits)

/-- Is the row of the VEX shape? (R91) -/
def Form.vex (f : Form) : Bool := f.bits.getLsbD 17

/-- The decode key of R111. -/
def decodeKey (vex w l : Bool) (pp : BitVec 2) (opMap : BitVec 5) (opcode : Byte) : BitVec 18 :=
  BitVec.ofBool vex ++ BitVec.ofBool w ++ BitVec.ofBool l ++ pp ++ opMap ++ opcode

/-! ### Legacy prefixes -/

/-- The role of a legacy prefix byte (R93); a mandatory prefix carries its `pp` value (R94). -/
inductive PrefixRole where
  | mandatory (pp : BitVec 2)
  | segment (s : Seg)
  | addressSize
  | lock
deriving DecidableEq, Repr

/-- The legacy prefix bytes of R93. -/
def prefixRole (b : Byte) : Option PrefixRole :=
  if b = 0x66#8 then some (.mandatory 1)
  else if b = 0xF3#8 then some (.mandatory 2)
  else if b = 0xF2#8 then some (.mandatory 3)
  else if b = 0x2E#8 then some (.segment .cs)
  else if b = 0x36#8 then some (.segment .ss)
  else if b = 0x3E#8 then some (.segment .ds)
  else if b = 0x26#8 then some (.segment .es)
  else if b = 0x64#8 then some (.segment .fs)
  else if b = 0x65#8 then some (.segment .gs)
  else if b = 0x67#8 then some .addressSize
  else if b = 0xF0#8 then some .lock
  else none

/-- The legacy prefixes read so far. -/
structure Prefixes where
  mandatory : Option (BitVec 2)
  seg : Option Seg
  addr32 : Bool
  lock : Bool
deriving DecidableEq, Repr

/-- No prefix read yet. -/
def Prefixes.empty : Prefixes := { mandatory := none, seg := none, addr32 := false, lock := false }

/-- Step 1 of R112: consumes the legacy prefixes, with the refusals of R94 and R95. -/
def scanPrefixes (m64 : Bool) (p : Prefixes) : List Byte → Except DecodeRefusal (Prefixes × List Byte)
  | [] => .ok (p, [])
  | b :: t =>
    match prefixRole b with
    | none => .ok (p, b :: t)
    | some .lock => scanPrefixes m64 { p with lock := true } t
    | some (.mandatory pp) =>
      if p.mandatory.isSome then .error .severalMandatoryPrefixes
      else scanPrefixes m64 { p with mandatory := some pp } t
    | some (.segment s) =>
      if p.seg.isSome then .error .severalSegmentPrefixes
      else scanPrefixes m64 { p with seg := some s } t
    | some .addressSize =>
      if !m64 then .error .addressSize16
      else if p.addr32 then .error .severalAddressSizePrefixes
      else scanPrefixes m64 { p with addr32 := true } t

/-! ### ModRM, SIB, displacement -/

/-- A 4-bit register number from its extension bit and its 3-bit field (R97, R105, R106). -/
def reg4 (ext : Bool) (field : BitVec 3) : Fin 16 := (BitVec.ofBool ext ++ field : BitVec 4).toFin

/-- Reads a disp32: four bytes, least significant first (R109). -/
def takeDisp32 : List Byte → Option (BitVec 32 × List Byte)
  | b0 :: b1 :: b2 :: b3 :: t => some (b3 ++ b2 ++ b1 ++ b0, t)
  | _ => none

/-- Reads the displacement that `mod` announces beside a base register (R107). -/
def takeDisp (mod : BitVec 2) (t : List Byte) : Option (Disp × List Byte) :=
  if mod = 0 then some (.none, t)
  else if mod = 1 then
    match t with
    | [] => none
    | b :: t' => some (.disp8 b, t')
  else (takeDisp32 t).map fun (d, t') => (.disp32 d, t')

/-- SIB scale field (R108). -/
def Scale.ofBits (b : BitVec 2) : Scale :=
  if b = 0 then .x1 else if b = 1 then .x2 else if b = 2 then .x4 else .x8

/-- SIB index field: `X ++ index = 0100b` is no index (R108). -/
def sibIndex (x : Bool) (field : BitVec 3) (scale : BitVec 2) : Option (GenReg × Scale) :=
  if reg4 x field = 4 then none else some (reg4 x field, Scale.ofBits scale)

/-- Reads the SIB byte and the displacement after it (R107, R108). -/
def parseSib (x b : Bool) (mod : BitVec 2) : List Byte → Option (Mem × List Byte)
  | [] => none
  | sb :: t =>
    let index := sibIndex x (sb.extractLsb' 3 3) (sb.extractLsb' 6 2)
    let base := sb.extractLsb' 0 3
    if mod = 0 ∧ base = 5 then
      (takeDisp32 t).map fun (d, t') => (.sibNoBase index d, t')
    else
      (takeDisp mod t).map fun (d, t') => (.sib (reg4 b base) index d, t')

/-- Operand 2 before its register file is known: the 3-bit `rm` field, or a memory operand. -/
inductive RawRM where
  | reg (rm : BitVec 3)
  | mem (m : Mem)
deriving DecidableEq, Repr

/-- Reads what follows a ModRM byte with fields `mod` and `rm` (R106, R107). -/
def parseRM (m64 x b : Bool) (mod : BitVec 2) (rm : BitVec 3) (t : List Byte) : Option (RawRM × List Byte) :=
  if mod = 3 then some (.reg rm, t)
  else if rm = 4 then (parseSib x b mod t).map fun (m, t') => (.mem m, t')
  else if mod = 0 ∧ rm = 5 then
    (takeDisp32 t).map fun (d, t') => (.mem (if m64 then .ripRel d else .abs d), t')
  else (takeDisp mod t).map fun (d, t') => (.mem (.based (reg4 b rm) d), t')

/-! ### Opcode and operands -/

/-- What the decoder knows before the ModRM byte. `ext`: a REX byte is there, or the VEX prefix has three bytes. -/
structure Head where
  seg : Option Seg
  addr32 : Bool
  ext : Bool
  r : Bool
  x : Bool
  b : Bool
deriving DecidableEq, Repr

def Head.legacy (h : Head) : LegacyEnc := { seg := h.seg, addr32 := h.addr32, rex := h.ext }

def Head.vex (h : Head) : VexEnc := { seg := h.seg, addr32 := h.addr32, three := h.ext }

/-- Operand 2 in the XMM/YMM file: `B ++ rm` (R106). -/
def RawRM.vec (b : Bool) : RawRM → RM 16
  | .reg rm => .reg (reg4 b rm)
  | .mem m => .mem m

/-- Operand 2 in the MMX file: `rm` alone (R24, R106). -/
def RawRM.mmx : RawRM → RM 8
  | .reg rm => .reg rm.toFin
  | .mem m => .mem m

/-- The instruction of a row, its `reg` field and its operand 2 (R105, R106). -/
def Form.build (f : Form) (h : Head) (reg : BitVec 3) (rm : RawRM) : Instr :=
  let d := reg4 h.r reg
  let src := rm.vec h.b
  match f with
  | .cvtdq2pd => .cvtdq2pd h.legacy d src
  | .vcvtdq2pd128 => .vcvtdq2pd128 h.vex d src
  | .vcvtdq2pd256 => .vcvtdq2pd256 h.vex d src
  | .cvtdq2ps => .cvtdq2ps h.legacy d src
  | .vcvtdq2ps128 => .vcvtdq2ps128 h.vex d src
  | .vcvtdq2ps256 => .vcvtdq2ps256 h.vex d src
  | .cvtpd2dq => .cvtpd2dq h.legacy d src
  | .vcvtpd2dq128 => .vcvtpd2dq128 h.vex d src
  | .vcvtpd2dq256 => .vcvtpd2dq256 h.vex d src
  | .cvtpd2pi => .cvtpd2pi h.legacy reg.toFin src
  | .cvtpd2ps => .cvtpd2ps h.legacy d src
  | .vcvtpd2ps128 => .vcvtpd2ps128 h.vex d src
  | .vcvtpd2ps256 => .vcvtpd2ps256 h.vex d src
  | .cvtpi2pd => .cvtpi2pd h.legacy d rm.mmx
  | .cvtpi2ps => .cvtpi2ps h.legacy d rm.mmx
  | .cvtps2dq => .cvtps2dq h.legacy d src
  | .vcvtps2dq128 => .vcvtps2dq128 h.vex d src
  | .vcvtps2dq256 => .vcvtps2dq256 h.vex d src
  | .cvtps2pd => .cvtps2pd h.legacy d src
  | .vcvtps2pd128 => .vcvtps2pd128 h.vex d src
  | .vcvtps2pd256 => .vcvtps2pd256 h.vex d src
  | .cvtps2pi => .cvtps2pi h.legacy reg.toFin src
  | .cvtsd2si32 => .cvtsd2si32 h.legacy d src
  | .cvtsd2si64 => .cvtsd2si64 h.legacy d src
  | .vcvtsd2si32 => .vcvtsd2si32 h.vex d src
  | .vcvtsd2si64 => .vcvtsd2si64 h.vex d src

/-- What the decoder answers. -/
inductive Decoded where
  /-- An instruction, and the bytes after it. -/
  | ok (i : Instr) (rest : List Byte)
  /-- A fault the encoding alone decides: `#UD` (R123). -/
  | invalidOpcode
  /-- Bytes without a meaning in this spec, and why (R122). -/
  | refused (r : DecodeRefusal)
  /-- The list ended before the instruction did. -/
  | short
deriving DecidableEq, Repr

/-- Steps 5 and 6 of R112: reads ModRM, SIB and displacement, then applies R96, R101 and R119 (`invalid`). -/
def decodeOperands (m64 : Bool) (f : Form) (h : Head) (invalid : Bool) : List Byte → Decoded
  | [] => .short
  | modrm :: t =>
    match parseRM m64 h.x h.b (modrm.extractLsb' 6 2) (modrm.extractLsb' 0 3) t with
    | none => .short
    | some (rm, rest) =>
      if invalid then .invalidOpcode else .ok (f.build h (modrm.extractLsb' 3 3) rm) rest

/-- Step 4 of R112 for the legacy shape, after the `0F` escape: the opcode byte selects the row. A missing mandatory prefix
is `pp = 0` (R94); without a REX byte `W = R = X = B = 0` (R97). -/
def decodeLegacyOpcode (m64 : Bool) (p : Prefixes) (rex : Option Byte) : List Byte → Decoded
  | [] => .short
  | op :: t =>
    let rexByte := rex.getD 0#8
    match selectForm (decodeKey false (rexByte.getLsbD 3) false (p.mandatory.getD 0) 1 op) with
    | none => .refused .notInSpec
    | some f =>
      let h : Head :=
        { seg := p.seg, addr32 := p.addr32, ext := rex.isSome,
          r := rexByte.getLsbD 2, x := rexByte.getLsbD 1, b := rexByte.getLsbD 0 }
      decodeOperands m64 f h p.lock t

/-- Step 4 of R112 for the VEX shape. `rxb` are the stored `R̄ X̄ B̄`, `opMap` is `mmmmm`, `wvlp` the byte `W v̄v̄v̄v̄ L pp`.
Outside 64-bit mode `W` counts as 0 (R103) and no register number is extended (R102). `misplaced`: step 3 has found what R101
forbids before the prefix; the `#UD` is answered once all bytes of the instruction are read, because a fetch fault comes first
(step 1 of R263), and in place of the refusal where no row matches (log entry 11). -/
def decodeVexOpcode (m64 : Bool) (p : Prefixes) (misplaced three : Bool) (rxb : BitVec 3) (opMap : BitVec 5) (wvlp : Byte) :
    List Byte → Decoded
  | [] => .short
  | op :: t =>
    match selectForm (decodeKey true (m64 && wvlp.getLsbD 7) (wvlp.getLsbD 2) (wvlp.extractLsb' 0 2) opMap op) with
    | none => if misplaced then .invalidOpcode else .refused .notInSpec
    | some f =>
      let h : Head :=
        { seg := p.seg, addr32 := p.addr32, ext := three,
          r := m64 && !rxb.getLsbD 2, x := m64 && !rxb.getLsbD 1, b := m64 && !rxb.getLsbD 0 }
      decodeOperands m64 f h (misplaced || decide (wvlp.extractLsb' 3 4 ≠ 15)) t

/-- May a VEX prefix follow what was read? Only a segment override and `67` may precede it (R101). -/
def vexAllowed (p : Prefixes) (rex : Option Byte) : Bool :=
  p.mandatory.isNone && !p.lock && rex.isNone

/-- Step 3 of R112, first byte `C5`: the two-byte prefix implies `X̄ = B̄ = 1`, `W = 0`, map `00001b` (R99, R102). -/
def decodeVex2 (m64 : Bool) (p : Prefixes) (rex : Option Byte) : List Byte → Decoded
  | [] => .short
  | b1 :: t =>
    if !m64 && decide (b1.extractLsb' 6 2 ≠ 3) then .refused .lesOrLds
    else decodeVexOpcode m64 p (!vexAllowed p rex) false (b1.extractLsb' 7 1 ++ 3#2) 1 (0#1 ++ b1.extractLsb' 0 7) t

/-- Step 3 of R112, first byte `C4`: the three-byte prefix (R100, R102). -/
def decodeVex3 (m64 : Bool) (p : Prefixes) (rex : Option Byte) : List Byte → Decoded
  | [] => .short
  | b1 :: t =>
    if !m64 && decide (b1.extractLsb' 6 2 ≠ 3) then .refused .lesOrLds
    else
      match t with
      | [] => .short
      | b2 :: t' => decodeVexOpcode m64 p (!vexAllowed p rex) true (b1.extractLsb' 5 3) (b1.extractLsb' 0 5) b2 t'

/-- Step 3 of R112: the `0F` escape or a VEX prefix; anything else is refused. -/
def decodeEscape (m64 : Bool) (p : Prefixes) (rex : Option Byte) : List Byte → Decoded
  | [] => .short
  | b :: t =>
    if b = 0x0F#8 then decodeLegacyOpcode m64 p rex t
    else if b = 0xC5#8 then decodeVex2 m64 p rex t
    else if b = 0xC4#8 then decodeVex3 m64 p rex t
    else if rex.isSome && (prefixRole b).isSome then .refused .rexNotLast
    else .refused .notInSpec

/-- Step 2 of R112: in 64-bit mode an optional REX byte `40`..`4F` (R97). -/
def decodeRex (m64 : Bool) (p : Prefixes) : List Byte → Decoded
  | [] => .short
  | b :: t =>
    if m64 && decide (b.extractLsb' 4 4 = 4) then decodeEscape m64 p (some b) t
    else decodeEscape m64 p none (b :: t)

/-- Decodes the instruction that a byte sequence begins with (R112). -/
def decode (m64 : Bool) (bytes : List Byte) : Decoded :=
  match scanPrefixes m64 .empty bytes with
  | .error r => .refused r
  | .ok (p, rest) => decodeRex m64 p rest

/-! ### The encoder -/

/-- The parts of an instruction that its encoding is written from. Register numbers are 4 bits wide; an MMX register has its
top bit clear. -/
structure Fields where
  form : Form
  seg : Option Seg
  addr32 : Bool
  ext : Bool
  reg : Fin 16
  rm : RM 16
deriving DecidableEq, Repr

def legacyFields (f : Form) (e : LegacyEnc) (d : Fin 16) (src : RM 16) : Fields :=
  { form := f, seg := e.seg, addr32 := e.addr32, ext := e.rex, reg := d, rm := src }

def vexFields (f : Form) (e : VexEnc) (d : Fin 16) (src : RM 16) : Fields :=
  { form := f, seg := e.seg, addr32 := e.addr32, ext := e.three, reg := d, rm := src }

/-- An MMX register number as a 4-bit number. -/
def mmxReg4 (r : Fin 8) : Fin 16 := r.castLE (by decide)

/-- Operand 2 of the MMX file with its register number as a 4-bit number. -/
def rmOfMmx : RM 8 → RM 16
  | .reg r => .reg (mmxReg4 r)
  | .mem m => .mem m

def Instr.fields : Instr → Fields
  | .cvtdq2pd e d src => legacyFields .cvtdq2pd e d src
  | .vcvtdq2pd128 e d src => vexFields .vcvtdq2pd128 e d src
  | .vcvtdq2pd256 e d src => vexFields .vcvtdq2pd256 e d src
  | .cvtdq2ps e d src => legacyFields .cvtdq2ps e d src
  | .vcvtdq2ps128 e d src => vexFields .vcvtdq2ps128 e d src
  | .vcvtdq2ps256 e d src => vexFields .vcvtdq2ps256 e d src
  | .cvtpd2dq e d src => legacyFields .cvtpd2dq e d src
  | .vcvtpd2dq128 e d src => vexFields .vcvtpd2dq128 e d src
  | .vcvtpd2dq256 e d src => vexFields .vcvtpd2dq256 e d src
  | .cvtpd2pi e d src => legacyFields .cvtpd2pi e (mmxReg4 d) src
  | .cvtpd2ps e d src => legacyFields .cvtpd2ps e d src
  | .vcvtpd2ps128 e d src => vexFields .vcvtpd2ps128 e d src
  | .vcvtpd2ps256 e d src => vexFields .vcvtpd2ps256 e d src
  | .cvtpi2pd e d src => legacyFields .cvtpi2pd e d (rmOfMmx src)
  | .cvtpi2ps e d src => legacyFields .cvtpi2ps e d (rmOfMmx src)
  | .cvtps2dq e d src => legacyFields .cvtps2dq e d src
  | .vcvtps2dq128 e d src => vexFields .vcvtps2dq128 e d src
  | .vcvtps2dq256 e d src => vexFields .vcvtps2dq256 e d src
  | .cvtps2pd e d src => legacyFields .cvtps2pd e d src
  | .vcvtps2pd128 e d src => vexFields .vcvtps2pd128 e d src
  | .vcvtps2pd256 e d src => vexFields .vcvtps2pd256 e d src
  | .cvtps2pi e d src => legacyFields .cvtps2pi e (mmxReg4 d) src
  | .cvtsd2si32 e d src => legacyFields .cvtsd2si32 e d src
  | .cvtsd2si64 e d src => legacyFields .cvtsd2si64 e d src
  | .vcvtsd2si32 e d src => vexFields .vcvtsd2si32 e d src
  | .vcvtsd2si64 e d src => vexFields .vcvtsd2si64 e d src

/-- Bit 3 of a register number, the extension bit (R97). -/
def extBit (r : Fin 16) : Bool := decide (8 ≤ r.val)

/-- Bits 2:0 of a register number, the ModRM or SIB field. -/
def lowField (r : Fin 16) : BitVec 3 := BitVec.ofNat 3 r.val

def Seg.byte : Seg → Byte
  | .cs => 0x2E#8
  | .ss => 0x36#8
  | .ds => 0x3E#8
  | .es => 0x26#8
  | .fs => 0x64#8
  | .gs => 0x65#8

def Scale.bits : Scale → BitVec 2
  | .x1 => 0
  | .x2 => 1
  | .x4 => 2
  | .x8 => 3

/-- Segment override, then address-size prefix (R93, R95). -/
def prefixBytes (seg : Option Seg) (addr32 : Bool) : List Byte :=
  (match seg with | none => [] | some s => [s.byte]) ++ (if addr32 then [0x67#8] else [])

/-- The mandatory prefix of a `pp` value (R94). -/
def ppBytes (pp : BitVec 2) : List Byte :=
  if pp = 0 then [] else if pp = 1 then [0x66#8] else if pp = 2 then [0xF3#8] else [0xF2#8]

/-- Four bytes, least significant first (R109). -/
def disp32Bytes (d : BitVec 32) : List Byte :=
  [d.extractLsb' 0 8, d.extractLsb' 8 8, d.extractLsb' 16 8, d.extractLsb' 24 8]

def Disp.bytes : Disp → List Byte
  | .none => []
  | .disp8 v => [v]
  | .disp32 v => disp32Bytes v

/-- The `mod` field that announces a displacement beside a base (R107). -/
def Disp.mod : Disp → BitVec 2
  | .none => 0
  | .disp8 _ => 1
  | .disp32 _ => 2

/-- The SIB byte (R108); "no index" is written with `index = 100b` and scale 1. -/
def sibByte (index : Option (GenReg × Scale)) (base : BitVec 3) : Byte :=
  match index with
  | none => 0#2 ++ 4#3 ++ base
  | some (r, s) => s.bits ++ lowField r ++ base

/-- ModRM and what follows it, for operand 1's field `reg` (R104, R107, R108). -/
def RM.bytes (reg : BitVec 3) : RM 16 → List Byte
  | .reg r => [3#2 ++ reg ++ lowField r]
  | .mem (.based b d) => (d.mod ++ reg ++ lowField b) :: d.bytes
  | .mem (.sib b i d) => (d.mod ++ reg ++ 4#3) :: sibByte i (lowField b) :: d.bytes
  | .mem (.sibNoBase i d) => (0#2 ++ reg ++ 4#3) :: sibByte i 5 :: disp32Bytes d
  | .mem (.ripRel d) => (0#2 ++ reg ++ 5#3) :: disp32Bytes d
  | .mem (.abs d) => (0#2 ++ reg ++ 5#3) :: disp32Bytes d

/-- Extension bit of a SIB index. -/
def indexExt : Option (GenReg × Scale) → Bool
  | none => false
  | some (r, _) => extBit r

/-- The bit `X`: extends SIB.index (R97). -/
def RM.xBit : RM 16 → Bool
  | .mem (.sib _ i _) | .mem (.sibNoBase i _) => indexExt i
  | _ => false

/-- The bit `B`: extends ModRM.rm or SIB.base (R97). -/
def RM.bBit : RM 16 → Bool
  | .reg r => extBit r
  | .mem (.based b _) | .mem (.sib b _ _) => extBit b
  | _ => false

def Form.opcode (f : Form) : Byte := f.bits.extractLsb' 0 8
def Form.pp (f : Form) : BitVec 2 := f.bits.extractLsb' 13 2
def Form.l (f : Form) : Bool := f.bits.getLsbD 15
def Form.w (f : Form) : Bool := f.bits.getLsbD 16

/-- The legacy shape of R90. -/
def Fields.legacyBytes (f : Fields) : List Byte :=
  prefixBytes f.seg f.addr32 ++ ppBytes f.form.pp ++
  (if f.ext then
    [4#4 ++ BitVec.ofBool f.form.w ++ BitVec.ofBool (extBit f.reg) ++ BitVec.ofBool f.rm.xBit ++ BitVec.ofBool f.rm.bBit]
   else []) ++
  [0x0F#8, f.form.opcode] ++ f.rm.bytes (lowField f.reg)

/-- The VEX shape of R90; `vvvv` is stored as `1111b` (R119), the other inverted fields as their complements (R100). -/
def Fields.vexBytes (f : Fields) : List Byte :=
  prefixBytes f.seg f.addr32 ++
  (if f.ext then
    [0xC4#8,
     BitVec.ofBool (!extBit f.reg) ++ BitVec.ofBool (!f.rm.xBit) ++ BitVec.ofBool (!f.rm.bBit) ++ 1#5,
     BitVec.ofBool f.form.w ++ 15#4 ++ BitVec.ofBool f.form.l ++ f.form.pp]
   else
    [0xC5#8, BitVec.ofBool (!extBit f.reg) ++ 15#4 ++ BitVec.ofBool f.form.l ++ f.form.pp]) ++
  [f.form.opcode] ++ f.rm.bytes (lowField f.reg)

/-- The bytes of a well-formed instruction, lowest address first (R90, R100: ignored fields are written as 0). -/
def encode (i : Instr) : List Byte :=
  if i.fields.form.vex then i.fields.vexBytes else i.fields.legacyBytes

/-! ### Length -/

def Disp.len : Disp → Nat
  | .none => 0
  | .disp8 _ => 1
  | .disp32 _ => 4

/-- SIB and displacement bytes of operand 2 (R92, R107). -/
def RM.len {n : Nat} : RM n → Nat
  | .reg _ => 0
  | .mem (.based _ d) => d.len
  | .mem (.sib _ _ d) => 1 + d.len
  | .mem (.sibNoBase _ _) => 5
  | .mem (.ripRel _) => 4
  | .mem (.abs _) => 4

/-- `ilen` of R92: prefixes, `0F opcode` or VEX prefix and opcode, ModRM, SIB, displacement. -/
def Fields.len (f : Fields) : Nat :=
  f.seg.toList.length + f.addr32.toNat +
  (if f.form.vex then (if f.ext then 3 else 2) + 1
   else (if f.form.pp = 0 then 0 else 1) + f.ext.toNat + 2) + 1 + f.rm.len

/-- The number of bytes of an instruction (R92). -/
def Instr.len (i : Instr) : Nat := i.fields.len

/-! ### The table's own numbering -/

/-- The bytes of a decode key of `opcode_table.json` (R111), with ModRM 0; `none` where no encoding has that key: a legacy
key has `L = 0` and map `00001b`. A VEX key is written with the three-byte prefix. -/
def keyBytes (k : BitVec 18) : Option (List Byte) :=
  if k.getLsbD 17 then
    some [0xC4#8, 7#3 ++ k.extractLsb' 8 5, k.extractLsb' 16 1 ++ 15#4 ++ k.extractLsb' 15 1 ++ k.extractLsb' 13 2,
      k.extractLsb' 0 8, 0#8]
  else if k.getLsbD 15 || decide (k.extractLsb' 8 5 ≠ 1) then none
  else
    some (ppBytes (k.extractLsb' 13 2) ++ (if k.getLsbD 16 then [0x48#8] else []) ++ [0x0F#8, k.extractLsb' 0 8, 0#8])

/-- The longest instruction (R92). -/
def maxLen : Nat := 15

/-- The 15 bytes that a table word stands for: the bytes of its key, then zeros (R111; log entry 2). -/
def tableBytes (w : Nat) : List Byte :=
  (((keyBytes (BitVec.ofNat 18 w)).getD []) ++ List.replicate maxLen 0#8).take maxLen

/-- The instruction that the decoder reads, in 64-bit mode, from the bytes of a word numbered as `opcode_table.json` numbers
it: the 18-bit decode key of R111 (log entry 2). Only `nbits` bits of `w` count. -/
def decodeTableWord (nbits w : Nat) : Option Instr :=
  match decode true (tableBytes (w % 2 ^ nbits)) with
  | .ok i _ => some i
  | _ => none

end Sys2Proof
end

