-- ==== Sys2Proof/Config.lean ====
section
/-! DEFINITION. What an implementation fixes: the parameters of `00_scope.md` R7 and R72 as plain data, and the free
values, which have no body because the spec admits every value for them. -/

namespace Sys2Proof

/-- The implementation parameters that are constants of a run (R7, R72; log entry 6).
`Mode64` is the field `mode` of the state, `NREG` follows from it, and `VLMAX` is 256 (R8; log entry 5). -/
structure Params where
  /-- CPUID feature flag SSE (R7, R267). -/
  sse : Bool
  /-- CPUID feature flag SSE2 (R2, R264, R267). -/
  sse2 : Bool
  /-- CPUID feature flag AVX (R2, R265). -/
  avx : Bool
  /-- CPUID feature flag MMX (R7); no rule of the spec makes an instruction depend on it (log entry 7). -/
  mmx : Bool
  /-- Width of a canonical linear address, `LinearAddressBits` of R72. -/
  linearAddressBits : Nat
deriving DecidableEq, Repr

/-- The default parameters: every feature present, 48-bit linear addresses (R7, R72, R300). -/
def Params.default : Params :=
  { sse := true, sse2 := true, avx := true, mmx := true, linearAddressBits := 48 }

/-- FREE VALUE (U13, R68; log entry 12): does the processor raise `#AC(0)` for this misaligned VEX `m128`/`m256` operand
while alignment checking is on? The argument is the state's counter `choices`. -/
opaque Config.alignmentCheckFires : Nat → Bool

/-- FREE VALUE (U6, R172; log entry 13): the six MXCSR flag bits a handler finds after an unmasked SIMD floating-point
exception. The argument is the state's counter `choices`. -/
opaque Config.simdFaultFlags : Nat → BitVec 6

end Sys2Proof
end

