-- ==== Sys2Proof/Machine/State.lean ====
section
/-! DEFINITION. The machine's state as plain data (`10_state.md` R20), the reasons a step can stop, and the state after
reset (R50, R305). Every register has one home here and is reached through the operations of Machine/Ops.lean. -/

namespace Sys2Proof.Machine

/-- Operating mode. The first two are the modes of R7 and R300 (`Mode64` true and false); the spec refuses the others
(R6 (e), R300). Reset leaves the machine in real-address mode (R50). -/
inductive Mode where
  | bits64
  /-- 32-bit protected mode, or compatibility mode with 32-bit default sizes. -/
  | bits32
  | realAddress
  | virtual8086
  | code16
  | systemManagement
deriving DecidableEq, Repr

/-- The launch memory's answer to a request for one byte (R61, R73). -/
inductive Answer where
  /-- The request is admitted. -/
  | granted
  /-- `#PF`: the error-code bits P and RSVD that the spec leaves to the launch memory (R261, R271). -/
  | pageFault (present reserved : Bool)
  /-- Outside a segment limit or a null segment: `#GP(0)`, or `#SS(0)` through SS (R73). -/
  | segmentFault
deriving DecidableEq, Repr

/-- A range of addresses and the answer given in it. -/
structure Region where
  base : Nat
  size : Nat
  answer : Answer
deriving DecidableEq, Repr

/-- The admission predicate of R61 for one kind of request, as data: the first region that holds an address answers for it. -/
abbrev Admission := List Region

/-- Memory contents as (address, byte) pairs in the canonical form of `Memory.wf` (Machine/Memory.lean). -/
abbrev Memory := List Host.Cell

/-- The state of the one agent (R17, R20). -/
structure State where
  /-- YMM[0..15], 256 bits each; XMM[i] is YMM[i][127:0] (R21). -/
  ymm : Vector (BitVec 256) 16
  /-- The eight 80-bit x87 data registers by physical number; MM[i] is bits 63:0 of register i (R24). -/
  x87 : Vector (BitVec 80) 8
  /-- x87.TOP (R26). -/
  x87Top : BitVec 3
  /-- x87.TAG (R27). -/
  x87Tag : BitVec 16
  /-- x87.pending (R29). -/
  x87Pending : Bool
  /-- General registers x[0..15] (R30). -/
  gpr : Vector Word 16
  /-- RIP; outside 64-bit mode EIP, held zero-extended (R33). -/
  pc : Word
  /-- EFLAGS; of its bits the instructions in scope read AC (bit 18) only (R35). -/
  eflags : BitVec 32
  /-- MXCSR (R36). -/
  mxcsr : BitVec 32
  /-- CR0, with EM, TS, NE and AM at bits 2, 3, 5 and 18 (R47). -/
  cr0 : BitVec 32
  /-- CR2, which records a page fault's linear address (R73, R261). -/
  cr2 : Word
  /-- CR4, with OSFXSR, OSXMMEXCPT and OSXSAVE at bits 9, 10 and 18 (R47). -/
  cr4 : BitVec 32
  /-- XCR0, whose bits 2:1 gate the VEX forms (R47). -/
  xcr0 : BitVec 64
  /-- Current privilege level (R47). -/
  cpl : BitVec 2
  /-- The hidden CS base, FFFF0000H after reset (R305); zero in the modes of R300 (R48). -/
  csBase : Word
  /-- FS.base (R48). -/
  fsBase : Word
  /-- GS.base (R48). -/
  gsBase : Word
  /-- Operating mode: the parameter `Mode64` (R7, R300). -/
  mode : Mode
  /-- The other parameters of a run (R7, R72). -/
  params : Params
  /-- Memory contents (R60, R61). -/
  mem : Memory
  /-- `Admit(_, _, fetch)` (R61, R302). -/
  fetchMap : Admission
  /-- `Admit(_, _, load)` (R61, R303). -/
  loadMap : Admission
  /-- The MODEL's own counter, no state of the spec's: the argument of the free values of Config.lean (log entry 12). -/
  choices : Nat
deriving DecidableEq, Repr

/-- The faults of R261. A fault is the terminal outcome of a step and stands for the delivery of the named vector (R262,
D11); nothing of the delivery is modelled (R276), so every constructor is safe: it stops where the processor goes on into a
handler. -/
inductive Fault where
  /-- `#UD`, vector 6: raised by the encoding and by the enable bits and feature flags (R264, R265, R267, R268). Safe. -/
  | invalidOpcode
  /-- `#UD`, vector 6: raised for an unmasked SIMD floating-point exception while `CR4.OSXMMEXCPT = 0` (R269). Safe. It is
  told apart from `invalidOpcode` because it alone leaves the MXCSR flags open (R262). -/
  | invalidOpcodeSimd
  /-- `#NM`, vector 7: raised while `CR0.TS = 1` (R266). Safe. -/
  | deviceNotAvailable
  /-- `#SS(0)`, vector 12: raised by a memory operand through SS (R72, R271). Safe. -/
  | stackSegment
  /-- `#GP(0)`, vector 13: raised by a memory operand (R66, R72, R271), by a fetch (R73) and by an instruction longer than
  15 bytes (R92). Safe. -/
  | generalProtection
  /-- `#PF(code)`, vector 14, with `CR2 = address`: raised by a load or a fetch that is not admitted (R73, R271). Safe. -/
  | pageFault (code : BitVec 32) (address : Word)
  /-- `#MF`, vector 16: raised by a pending x87 exception (R270). Safe. -/
  | x87FloatingPoint
  /-- `#AC(0)`, vector 17: raised by a misaligned operand while alignment checking is on (R68). Safe. -/
  | alignmentCheck
  /-- `#XM`, vector 19: raised by an unmasked SIMD floating-point exception (R172, R272). Safe. -/
  | simdFloatingPoint
deriving DecidableEq, Repr

/-- Why a step has no meaning in this spec (R16). Every constructor is safe: nothing is claimed of the processor. -/
inductive Refusal where
  /-- Raised by `exec` for an instruction without a meaning; no arm uses it. Safe. -/
  | notModelled (mnemonic : String)
  /-- Raised by the decoder (R122). Safe. -/
  | bytes (r : DecodeRefusal)
  /-- Raised in a mode that R300 refuses. Safe. -/
  | modeOutOfScope
  /-- Raised when the instruction's bytes run over the top of the address space (R34, D21), and for a program text that wraps
  around it (R302, D21). Safe. -/
  | wrapsAddressSpace
  /-- Raised when an x87 exception is pending and `CR0.NE = 0`: it is reported through an external interrupt, a path the
  spec does not model (R270, D22). Safe. -/
  | x87ReportedExternally
deriving DecidableEq, Repr

/-- The state after power-up or RESET (R50, R305), before any launch. The values of EDX, CR2, FS.base, GS.base, memory
and the admission maps are not given by the spec: log entries 3 and 4. No program is in it. -/
def State.reset : State :=
  { ymm := Vector.replicate 16 0#256
    x87 := Vector.replicate 8 0#80
    x87Top := 0#3
    x87Tag := 0x5555#16
    x87Pending := false
    gpr := (Vector.replicate 16 0#64).set 2 0x000206A7#64
    pc := 0x0000FFF0#64
    eflags := 0x00000002#32
    mxcsr := 0x00001F80#32
    cr0 := 0x60000010#32
    cr2 := 0#64
    cr4 := 0#32
    xcr0 := 1#64
    cpl := 0#2
    csBase := 0xFFFF0000#64
    fsBase := 0#64
    gsBase := 0#64
    mode := .realAddress
    params := .default
    mem := []
    fetchMap := []
    loadMap := [{ base := 0, size := 2 ^ 64, answer := .granted }]
    choices := 0 }

end Sys2Proof.Machine
end

