-- ==== Sys2Proof/Machine/Flags.lean ====
section
/-! DEFINITION. MXCSR and the five exception flags a conversion can raise (`10_state.md` R36 to R41,
`40_conversion_primitives.md` R170 to R173). -/

namespace Sys2Proof.Machine

/-- Rounding modes (R37, R143). -/
inductive Rounding where
  /-- `RN`: to nearest, ties to even. -/
  | nearest
  /-- `RD`: toward minus infinity. -/
  | down
  /-- `RU`: toward plus infinity. -/
  | up
  /-- `RZ`: toward zero. -/
  | zero
deriving DecidableEq, Repr

/-- The encoding of MXCSR.RC (R37). -/
def Rounding.ofBits (b : BitVec 2) : Rounding :=
  if b = 0 then .nearest else if b = 1 then .down else if b = 2 then .up else .zero

/-- A flag set drawn from `{I, D, O, U, P}` (R170). -/
structure FpFlags where
  invalid : Bool
  denormal : Bool
  overflow : Bool
  underflow : Bool
  precision : Bool
deriving DecidableEq, Repr

/-- `{}` -/
def FpFlags.none : FpFlags := ⟨false, false, false, false, false⟩

/-- `{I}` -/
def FpFlags.onlyInvalid : FpFlags := ⟨true, false, false, false, false⟩

/-- `{P}` if the conversion is inexact, else `{}` (R143). -/
def FpFlags.inexact (b : Bool) : FpFlags := ⟨false, false, false, false, b⟩

def FpFlags.union (f g : FpFlags) : FpFlags :=
  ⟨f.invalid || g.invalid, f.denormal || g.denormal, f.overflow || g.overflow, f.underflow || g.underflow,
   f.precision || g.precision⟩

/-- `bits(FL)`: I, D, O, U, P at bits 0, 1, 3, 4, 5 (R171); bit 2, ZE, is never set (R36). -/
def FpFlags.bits (f : FpFlags) : BitVec 6 :=
  BitVec.ofBool f.precision ++ BitVec.ofBool f.underflow ++ BitVec.ofBool f.overflow ++ 0#1 ++
  BitVec.ofBool f.denormal ++ BitVec.ofBool f.invalid

namespace State

/-- MXCSR[5:0], the sticky flags IE, DE, ZE, OE, UE, PE (R36, R38). -/
def fpFlagBits (s : State) : BitVec 6 := s.mxcsr.extractLsb' 0 6

/-- MXCSR[12:7], the masks IM, DM, ZM, OM, UM, PM, in the order of the flags (R36, R39). -/
def fpMasks (s : State) : BitVec 6 := s.mxcsr.extractLsb' 7 6

/-- MXCSR.RC (R37). -/
def rc (s : State) : Rounding := .ofBits (s.mxcsr.extractLsb' 13 2)

/-- MXCSR.DAZ (R40). -/
def daz (s : State) : Bool := s.mxcsr.getLsbD 6

/-- MXCSR.FZ (R40). -/
def fz (s : State) : Bool := s.mxcsr.getLsbD 15

/-- MXCSR.UM (R36). -/
def um (s : State) : Bool := s.mxcsr.getLsbD 11

/-- Does the set hold a flag whose mask bit is 0? (R172) -/
def unmasked (s : State) (f : FpFlags) : Bool := decide (f.bits &&& ~~~s.fpMasks ≠ 0)

/-- `MXCSR[5:0] <- MXCSR[5:0] OR bits(FL)` (R171). -/
def raiseFlags (s : State) (f : FpFlags) : State := { s with mxcsr := s.mxcsr ||| f.bits.setWidth 32 }

end State

end Sys2Proof.Machine
end

