-- ==== Sys2Proof/Machine/Float.lean ====
section
/-! DEFINITION. Formats, exact values and rounding (`40_conversion_primitives.md` R140 to R146). Values are computed exactly
as `num * 2^exp` over the integers; the only rounding is `roundDiv`. -/

namespace Sys2Proof.Machine

/-- A floating-point format (R140): exponent width `E` and fraction width `F`. -/
structure Fmt where
  ebits : Nat
  fbits : Nat
deriving DecidableEq, Repr

/-- Single precision, `F32`. -/
def f32 : Fmt := ⟨8, 23⟩

/-- Double precision, `F64`. -/
def f64 : Fmt := ⟨11, 52⟩

def Fmt.bias (f : Fmt) : Nat := 2 ^ (f.ebits - 1) - 1

/-- The largest exponent field, all ones: infinities and NaNs (R141). -/
def Fmt.expMax (f : Fmt) : Nat := 2 ^ f.ebits - 1

def Fmt.emin (f : Fmt) : Int := 1 - (f.bias : Int)

/-- A bit string of some format, taken apart (R140). -/
structure Unpacked where
  sign : Bool
  exp : Nat
  frac : Nat
deriving DecidableEq, Repr

def unpack32 (b : BitVec 32) : Unpacked :=
  { sign := b.getLsbD 31, exp := (b.extractLsb' 23 8).toNat, frac := (b.extractLsb' 0 23).toNat }

def unpack64 (b : BitVec 64) : Unpacked :=
  { sign := b.getLsbD 63, exp := (b.extractLsb' 52 11).toNat, frac := (b.extractLsb' 0 52).toNat }

def pack32 (u : Unpacked) : BitVec 32 :=
  BitVec.ofBool u.sign ++ BitVec.ofNat 8 u.exp ++ BitVec.ofNat 23 u.frac

def pack64 (u : Unpacked) : BitVec 64 :=
  BitVec.ofBool u.sign ++ BitVec.ofNat 11 u.exp ++ BitVec.ofNat 52 u.frac

/-- The classes of R141. -/
inductive FpClass where
  | zero | denormal | normal | infinity | signalling | quiet
deriving DecidableEq, Repr

def Fmt.classify (f : Fmt) (u : Unpacked) : FpClass :=
  if u.exp = 0 then (if u.frac = 0 then .zero else .denormal)
  else if u.exp = f.expMax then
    if u.frac = 0 then .infinity
    else if u.frac / 2 ^ (f.fbits - 1) = 0 then .signalling else .quiet
  else .normal

/-- The rational `num * 2^exp`. -/
structure Scaled where
  num : Int
  exp : Int
deriving DecidableEq, Repr

/-- `val(b)` of a zero, denormal or normal bit string (R141). -/
def Fmt.value (f : Fmt) (u : Unpacked) : Scaled :=
  let mag : Nat := if u.exp = 0 then u.frac else 2 ^ f.fbits + u.frac
  let exp : Int := if u.exp = 0 then f.emin - f.fbits else (u.exp : Int) - f.bias - f.fbits
  { num := if u.sign then -(mag : Int) else mag, exp := exp }

/-- `num / den` rounded to an integer; `den` is positive, so `/` and `%` give `lo` and the distance above it (R143). -/
def roundDiv (rc : Rounding) (num : Int) (den : Nat) : Int :=
  let lo := num / (den : Int)
  let rem := num % (den : Int)
  if rem = 0 then lo
  else
    match rc with
    | .down => lo
    | .up => lo + 1
    | .zero => if 0 < num then lo else lo + 1
    | .nearest =>
      if 2 * rem < den then lo
      else if (den : Int) < 2 * rem then lo + 1
      else if lo % 2 = 0 then lo else lo + 1

/-- The multiple of `2^grid` that R143 picks for `q`, as the multiplier, and whether the conversion is inexact. -/
def Scaled.roundTo (q : Scaled) (grid : Int) (rc : Rounding) : Int × Bool :=
  if grid ≤ q.exp then (q.num * 2 ^ (q.exp - grid).toNat, false)
  else
    let den := 2 ^ (grid - q.exp).toNat
    (roundDiv rc q.num den, decide (q.num % (den : Int) ≠ 0))

/-- `RoundInt` of R144. -/
def Scaled.roundInt (q : Scaled) (rc : Rounding) : Int × Bool := q.roundTo 0 rc

/-- `floor(log2 |q|)` of a nonzero `q` (R145). -/
def Scaled.log2 (q : Scaled) : Int := (q.num.natAbs.log2 : Int) + q.exp

/-- `RoundSig` of R145 for a nonzero `q`: the rounded value on the grid of multiples of `2^(log2 q - p + 1)`, and whether it
differs from `q`. -/
def Scaled.roundSig (q : Scaled) (p : Nat) (rc : Rounding) : Scaled × Bool :=
  let grid := q.log2 - p + 1
  let r := q.roundTo grid rc
  ({ num := r.1, exp := grid }, r.2)

/-- `Encode` of R146: the fields of sign `s` and the representable magnitude `m * 2^exp`. -/
def Fmt.encode (f : Fmt) (s : Bool) (m : Nat) (exp : Int) : Unpacked :=
  if m = 0 then { sign := s, exp := 0, frac := 0 }
  else
    let e : Int := (m.log2 : Int) + exp
    if f.emin ≤ e then
      { sign := s, exp := (e + f.bias).toNat, frac := m * 2 ^ f.fbits / 2 ^ m.log2 - 2 ^ f.fbits }
    else
      let shift : Int := exp - (f.emin - f.fbits)
      { sign := s, exp := 0, frac := if 0 ≤ shift then m * 2 ^ shift.toNat else m / 2 ^ (-shift).toNat }

end Sys2Proof.Machine
end

