-- ==== Sys2Proof/Machine/Convert.lean ====
section
/-! DEFINITION. The seven conversion primitives (`00_scope.md` R13, `40_conversion_primitives.md` R150 to R156). Each gives a
result and a flag set. -/

namespace Sys2Proof.Machine

/-- Result and flag set of one element (R170). -/
structure Conv (w : Nat) where
  value : BitVec w
  flags : FpFlags
deriving DecidableEq, Repr

/-- `Convert_Integer_To_Double_Precision_Floating_Point`: always exact (R150). -/
def i32ToF64 (x : BitVec 32) : Conv 64 :=
  { value := pack64 (f64.encode (decide (x.toInt < 0)) x.toInt.natAbs 0), flags := .none }

/-- `Convert_Integer_To_Single_Precision_Floating_Point` (R151). -/
def i32ToF32 (rc : Rounding) (x : BitVec 32) : Conv 32 :=
  if x.toInt = 0 then { value := 0#32, flags := .none }
  else
    let r := (Scaled.mk x.toInt 0).roundSig 24 rc
    { value := pack32 (f32.encode (decide (x.toInt < 0)) r.1.num.natAbs r.1.exp), flags := .inexact r.2 }

/-- The indefinite integer: the most negative value of the width (R14, R152, R153). -/
def indefinite (w : Nat) : BitVec w := BitVec.intMin w

/-- Floating-point to `w`-bit integer; the range test is on the rounded value (R152 to R154). -/
def toIntConv (f : Fmt) (w : Nat) (rc : Rounding) (daz : Bool) (u : Unpacked) : Conv w :=
  match f.classify u with
  | .signalling | .quiet | .infinity => { value := indefinite w, flags := .onlyInvalid }
  | c =>
    if c = .denormal ∧ daz = true then { value := 0#w, flags := .none }
    else
      let r := (f.value u).roundInt rc
      if (2 : Int) ^ (w - 1) ≤ r.1 ∨ r.1 < -(2 : Int) ^ (w - 1) then
        { value := indefinite w, flags := .onlyInvalid }
      else { value := BitVec.ofInt w r.1, flags := .inexact r.2 }

/-- `Convert_Double_Precision_Floating_Point_To_Integer`, `..._To_Integer32` (R152). -/
def f64ToI32 (rc : Rounding) (daz : Bool) (b : BitVec 64) : Conv 32 := toIntConv f64 32 rc daz (unpack64 b)

/-- `Convert_Double_Precision_Floating_Point_To_Integer64` (R153). -/
def f64ToI64 (rc : Rounding) (daz : Bool) (b : BitVec 64) : Conv 64 := toIntConv f64 64 rc daz (unpack64 b)

/-- `Convert_Single_Precision_Floating_Point_To_Integer` (R154). -/
def f32ToI32 (rc : Rounding) (daz : Bool) (b : BitVec 32) : Conv 32 := toIntConv f32 32 rc daz (unpack32 b)

/-- The overflow result of R155 step 6 (a): infinity or the largest finite value. -/
def f32Overflow (rc : Rounding) (s : Bool) : BitVec 32 :=
  let toInfinity :=
    match rc with
    | .nearest => true
    | .up => !s
    | .down => s
    | .zero => false
  if toInfinity then pack32 { sign := s, exp := 255, frac := 0 }
  else pack32 { sign := s, exp := 254, frac := 0x7FFFFF }

/-- Step 6 (c) of R155, a tiny result: `q` on the denormal grid, the multiples of `2^-149`. DESIGN CHOICE for `um = 0`, where
the rule gives no result value and does not say what "inexact" compares: the result is the denormal-grid value and `P` says
that it differs from `q`. No step shows either, because the unmasked `U` faults and leaves the flags open (log entry 32). -/
def f32Tiny (rc : Rounding) (fz um s : Bool) (q : Scaled) : Conv 32 :=
  let d := q.roundTo (-149) rc
  let denormal := pack32 (f32.encode s d.1.natAbs (-149))
  if !um then
    { value := denormal, flags := { FpFlags.none with underflow := true, precision := d.2 } }
  else if fz then
    { value := pack32 { sign := s, exp := 0, frac := 0 },
      flags := { FpFlags.none with underflow := true, precision := true } }
  else { value := denormal, flags := { FpFlags.none with underflow := d.2, precision := d.2 } }

/-- Step 6 of R155: `q = val(b)`, nonzero, of sign `s`. Tininess and overflow are judged on the value rounded to 24 bits with
unbounded exponent. -/
def f32OfValue (rc : Rounding) (fz um s : Bool) (q : Scaled) : Conv 32 :=
  let u := q.roundSig 24 rc
  if 128 ≤ u.1.log2 then
    { value := f32Overflow rc s, flags := { FpFlags.none with overflow := true, precision := true } }
  else if -126 ≤ u.1.log2 then
    { value := pack32 (f32.encode s u.1.num.natAbs u.1.exp), flags := .inexact u.2 }
  else f32Tiny rc fz um s q

/-- `Convert_Double_Precision_To_Single_Precision_Floating_Point` (R155). -/
def f64ToF32 (rc : Rounding) (daz fz um : Bool) (b : BitVec 64) : Conv 32 :=
  let u := unpack64 b
  let quieted := pack32 { sign := u.sign, exp := 255, frac := 2 ^ 22 + u.frac % 2 ^ 51 / 2 ^ 29 }
  let zero := pack32 { sign := u.sign, exp := 0, frac := 0 }
  match f64.classify u with
  | .infinity => { value := pack32 { sign := u.sign, exp := 255, frac := 0 }, flags := .none }
  | .quiet => { value := quieted, flags := .none }
  | .signalling => { value := quieted, flags := .onlyInvalid }
  | .zero => { value := zero, flags := .none }
  | .denormal =>
    if daz then { value := zero, flags := .none }
    else
      let c := f32OfValue rc fz um u.sign (f64.value u)
      { c with flags := { c.flags with denormal := true } }
  | .normal => f32OfValue rc fz um u.sign (f64.value u)

/-- `Convert_Single_Precision_To_Double_Precision_Floating_Point`: always exact (R156). -/
def f32ToF64 (daz : Bool) (b : BitVec 32) : Conv 64 :=
  let u := unpack32 b
  let quieted := pack64 { sign := u.sign, exp := 2047, frac := 2 ^ 51 + u.frac % 2 ^ 22 * 2 ^ 29 }
  let zero := pack64 { sign := u.sign, exp := 0, frac := 0 }
  let v := f32.value u
  let exact := pack64 (f64.encode u.sign v.num.natAbs v.exp)
  match f32.classify u with
  | .infinity => { value := pack64 { sign := u.sign, exp := 2047, frac := 0 }, flags := .none }
  | .quiet => { value := quieted, flags := .none }
  | .signalling => { value := quieted, flags := .onlyInvalid }
  | .zero => { value := zero, flags := .none }
  | .denormal =>
    if daz then { value := zero, flags := .none }
    else { value := exact, flags := { FpFlags.none with denormal := true } }
  | .normal => { value := exact, flags := .none }

end Sys2Proof.Machine
end

