-- ==== Sys2Proof/Machine/Memory.lean ====
section
/-! DEFINITION. Memory contents, byte order and the admission predicate (`20_memory.md` R60 to R64, R73). -/

namespace Sys2Proof.Machine

/-- What an address without an entry reads as: 0 (DESIGN CHOICE, unsafe; log entry 4). -/
def Memory.unlisted : Byte := 0#8

/-- The byte at an address. -/
def Memory.read : Memory → Nat → Byte
  | [], _ => Memory.unlisted
  | (k, v) :: t, a => if k = a then v else Memory.read t a

/-- Puts an entry in front of a memory, unless it is what an unlisted address reads as. -/
def Memory.push (a : Nat) (v : Byte) (m : Memory) : Memory := if v = Memory.unlisted then m else (a, v) :: m

/-- Writes the byte at an address, keeping the canonical form. -/
def Memory.write : Memory → Nat → Byte → Memory
  | [], a, v => Memory.push a v []
  | (k, w) :: t, a, v =>
    if a < k then Memory.push a v ((k, w) :: t)
    else if a = k then Memory.push a v t
    else (k, w) :: Memory.write t a v

/-- Canonical form from address `lo` on: addresses strictly rising and below `2^64`, no entry that equals what an unlisted
address reads as. -/
def Memory.wfFrom (lo : Nat) : Memory → Bool
  | [] => true
  | (k, v) :: t => decide (lo ≤ k) && decide (k < 2 ^ 64) && decide (v ≠ Memory.unlisted) && Memory.wfFrom (k + 1) t

/-- The canonical form of memory. -/
def Memory.wf (m : Memory) : Bool := Memory.wfFrom 0 m

/-- Writes bytes at rising addresses, computed modulo `2^64` (R62). -/
def Memory.writeBytes (m : Memory) (a : Word) : List Byte → Memory
  | [] => m
  | b :: t => Memory.writeBytes (m.write a.toNat b) (a + 1) t

/-- Does the region hold the address? -/
def Region.holds (r : Region) (a : Nat) : Bool := decide (r.base ≤ a) && decide (a < r.base + r.size)

/-- The answer to a request for the byte at `a`: that of the first region holding it, and a not-present page fault where
there is none (R61, R73; log entry 8). -/
def Admission.answer : Admission → Nat → Answer
  | [], _ => .pageFault false false
  | r :: t, a => if r.holds a then r.answer else Admission.answer t a

/-- `#PF` error code: P, W/R = 0, U/S (1 at CPL 3), RSVD, I/D (1 for a fetch) at bits 0 to 4 (R261). -/
def pageFaultCode (present user reserved fetch : Bool) : BitVec 32 :=
  0#27 ++ BitVec.ofBool fetch ++ BitVec.ofBool reserved ++ BitVec.ofBool user ++ 0#1 ++ BitVec.ofBool present

/-- Address of byte `k` of an access: modulo `2^64` in 64-bit mode, modulo `2^32` outside it (R62). -/
def byteAddress (m64 : Bool) (a : Word) (k : Nat) : Word :=
  if m64 then a + BitVec.ofNat 64 k else ((a + BitVec.ofNat 64 k).setWidth 32).setWidth 64

/-- The bytes of an access, lowest address first. -/
def readBytes (m : Memory) (m64 : Bool) (a : Word) (n : Nat) : List Byte :=
  (List.range n).map fun k => m.read (byteAddress m64 a k).toNat

/-- Little-endian: the byte at the lowest address is bits 7:0 (R64). -/
def ofBytes (w : Nat) : List Byte → BitVec w
  | [] => 0#w
  | b :: t => (ofBytes w t <<< 8) ||| b.setWidth w

/-- The bytes of a value, lowest first (R64). -/
def toBytes {w : Nat} (v : BitVec w) : List Byte :=
  (List.range (w / 8)).map fun k => v.extractLsb' (8 * k) 8

end Sys2Proof.Machine
end

