-- ==== Sys2Proof/Machine/Ops.lean ====
section
/-! DEFINITION. The named operations on the state: control bits, register reads and writes, raising a fault, the admission
checks, lanes, and `runConversion`, the execution skeleton that all 26 instructions share (`41_cvtdq2pd_cvtdq2ps.md` R180). -/

namespace Sys2Proof.Machine

/-- The outcome of a step (R16). -/
abbrev Out := Host.Outcome State Fault Refusal

/-- Why an instruction does not complete. -/
inductive Stop where
  | fault (f : Fault)
  | refuse (r : Refusal)
deriving DecidableEq, Repr

/-- Raising an exception, the one shared operation: the step ends in the fault, which is a terminal outcome; no delivery
through a descriptor table, no handler and no return is modelled (R262, R276, R277, D11). -/
def raise (f : Fault) : Out := .fault f

/-- The outcome a stop stands for. -/
def Stop.out : Stop → Out
  | .fault f => raise f
  | .refuse r => .refused r

/-- The vector of a fault (R261). -/
def Fault.vector : Fault → Nat
  | .invalidOpcode => 6
  | .invalidOpcodeSimd => 6
  | .deviceNotAvailable => 7
  | .stackSegment => 12
  | .generalProtection => 13
  | .pageFault _ _ => 14
  | .x87FloatingPoint => 16
  | .alignmentCheck => 17
  | .simdFloatingPoint => 19

/-- The error code a fault pushes, if any (R261). -/
def Fault.errorCode : Fault → Option (BitVec 32)
  | .stackSegment => some 0#32
  | .generalProtection => some 0#32
  | .pageFault code _ => some code
  | .alignmentCheck => some 0#32
  | _ => none

/-- The faulted state: what a handler would find. Nothing has changed but `CR2` after a page fault (R261) and the six MXCSR
flag bits after an unmasked SIMD exception, which are a free value (R172, R262; log entry 13). -/
def State.atFault (s : State) : Fault → State
  | .pageFault _ a => { s with cr2 := a }
  | .simdFloatingPoint => { s with mxcsr := s.mxcsr.extractLsb' 6 26 ++ Config.simdFaultFlags s.choices }
  | .invalidOpcodeSimd => { s with mxcsr := s.mxcsr.extractLsb' 6 26 ++ Config.simdFaultFlags s.choices }
  | _ => s

/-- The two modes that R300 admits. -/
def Mode.modelled : Mode → Bool
  | .bits64 => true
  | .bits32 => true
  | _ => false

/-- The modes without protection, in which VEX forms raise `#UD` (R265). -/
def Mode.unprotected : Mode → Bool
  | .realAddress => true
  | .virtual8086 => true
  | _ => false

namespace State

/-! ### Control bits (R7, R35, R47) -/

/-- `Mode64` (R7). -/
def mode64 (s : State) : Bool := decide (s.mode = .bits64)
def em (s : State) : Bool := s.cr0.getLsbD 2
def ts (s : State) : Bool := s.cr0.getLsbD 3
def ne (s : State) : Bool := s.cr0.getLsbD 5
def am (s : State) : Bool := s.cr0.getLsbD 18
def osfxsr (s : State) : Bool := s.cr4.getLsbD 9
def osxmmexcpt (s : State) : Bool := s.cr4.getLsbD 10
def osxsave (s : State) : Bool := s.cr4.getLsbD 18
/-- `XCR0[2:1] = 11b`. -/
def avxEnabled (s : State) : Bool := s.xcr0.getLsbD 1 && s.xcr0.getLsbD 2
/-- `EFLAGS.AC` (R35). -/
def ac (s : State) : Bool := s.eflags.getLsbD 18

/-! ### Register reads and writes -/

/-- The low `w` bits of vector register `r`: `XMM[r][63:0]`, `XMM[r]`, `YMM[r]` (R21). -/
def vec (s : State) (w : Nat) (r : VecReg) : BitVec w := s.ymm[r].extractLsb' 0 w

/-- Writes all of `YMM[d]`. -/
def writeYmm (s : State) (d : VecReg) (v : BitVec 256) : State := { s with ymm := s.ymm.set d v }

/-- Legacy discipline: writes `YMM[d][127:0]`, leaves `YMM[d][255:128]` (R22 (a)). -/
def writeXmm (s : State) (d : VecReg) (v : BitVec 128) : State :=
  s.writeYmm d (s.ymm[d].extractLsb' 128 128 ++ v)

/-- CVTPI2PS: writes `YMM[d][63:0]`, leaves `YMM[d][255:64]` (R22 (a), R221). -/
def writeXmmLow (s : State) (d : VecReg) (v : BitVec 64) : State :=
  s.writeYmm d (s.ymm[d].extractLsb' 64 192 ++ v)

/-- `MM[r]`, bits 63:0 of x87 data register `r` (R24). -/
def mm (s : State) (r : MmxReg) : BitVec 64 := s.x87[r].extractLsb' 0 64

/-- Writes `MM[d]`; bits 79:64 of the x87 data register become all ones (R25). -/
def writeMm (s : State) (d : MmxReg) (v : BitVec 64) : State :=
  { s with x87 := s.x87.set d (BitVec.allOnes 16 ++ v) }

/-- `MMXTransition()` (R28). -/
def mmxTransition (s : State) : State := { s with x87Top := 0, x87Tag := 0 }

/-- Writes an `r64` destination (R31). -/
def writeGpr64 (s : State) (d : GenReg) (v : BitVec 64) : State := { s with gpr := s.gpr.set d v }

/-- Writes an `r32` destination: in 64-bit mode bits 63:32 become 0, outside it they stay (R31). -/
def writeGpr32 (s : State) (d : GenReg) (v : BitVec 32) : State :=
  s.writeGpr64 d (if s.mode64 then v.setWidth 64 else s.gpr[d].extractLsb' 32 32 ++ v)

/-- `pc + ilen`, modulo `2^64` in 64-bit mode and modulo `2^32` outside it (R34). -/
def nextPc (s : State) (len : Nat) : Word :=
  if s.mode64 then s.pc + BitVec.ofNat 64 len else ((s.pc + BitVec.ofNat 64 len).setWidth 32).setWidth 64

/-- Completes an instruction: `pc <- pc + ilen` (R34). The model's counter of free values moves on. -/
def retire (s : State) (len : Nat) : State := { s with pc := s.nextPc len, choices := s.choices + 1 }

/-! ### Admission checks, in the order of R263 -/

/-- Steps 3 and 4 of R263 for a legacy form that needs the CPUID feature `feature`: `#UD` (R264, R267), then `#NM` (R266).
The modes that R300 refuses have no meaning beyond the `#UD` checks (R306). -/
def admitLegacy (s : State) (feature : Bool) : Option Stop :=
  if s.em || !s.osfxsr || !feature then some (.fault .invalidOpcode)
  else if !s.mode.modelled then some (.refuse .modeOutOfScope)
  else if s.ts then some (.fault .deviceNotAvailable)
  else none

/-- Steps 3 and 4 of R263 for a VEX form: `#UD` (R265), then `#NM` (R266). `CR0.EM` does not gate it (log entry 9). -/
def admitVex (s : State) : Option Stop :=
  if !s.osxsave || !s.avxEnabled || !s.params.avx || s.mode.unprotected then some (.fault .invalidOpcode)
  else if !s.mode.modelled then some (.refuse .modeOutOfScope)
  else if s.ts then some (.fault .deviceNotAvailable)
  else none

/-- Steps 3 to 5 of R263 for a form with an MMX operand; the check of a pending x87 exception only where the form performs
`MMXTransition()` (R267, R270). With `CR0.NE = 0` it is reported on a path that is not modelled. -/
def admitMmx (s : State) (feature transition : Bool) : Option Stop :=
  match s.admitLegacy feature with
  | some stop => some stop
  | none =>
    if transition && s.x87Pending then
      some (if s.ne then .fault .x87FloatingPoint else .refuse .x87ReportedExternally)
    else none

/-- Step 7 of R263: an unmasked flag is `#XM`, or `#UD` when `CR4.OSXMMEXCPT = 0` (R172, R269, R272). -/
def simdStop (s : State) (f : FpFlags) : Option Stop :=
  if s.unmasked f then
    some (.fault (if s.osxmmexcpt then .simdFloatingPoint else .invalidOpcodeSimd))
  else none

end State

/-! ### Lanes -/

/-- Element `k` of width `w`: bits `[w*k+w-1 : w*k]` (R14). -/
def lane {n : Nat} (w k : Nat) (v : BitVec n) : BitVec w := v.extractLsb' (w * k) w

/-- Converts the elements 0 to `n-1` of the source, each on its own (R170). -/
def convLanes {a b w : Nat} (n : Nat) (f : BitVec a → Conv b) (v : BitVec w) : List (Conv b) :=
  (List.range n).map fun k => f (lane a k v)

/-- The union `FL` of the elements' flag sets (R170). -/
def unionFlags {b : Nat} (rs : List (Conv b)) : FpFlags := rs.foldr (fun c acc => c.flags.union acc) .none

/-- The results side by side, element 0 lowest, the bits above them 0. -/
def packLanes {b : Nat} (m : Nat) : List (Conv b) → BitVec m
  | [] => 0#m
  | c :: t => (packLanes m t <<< b) ||| c.value.setWidth m

/-- The execution skeleton of R180, after decoding: admission checks, source fetch, conversion, SIMD fault, commit. Every
read of the source precedes every write. -/
def runConversion {b w : Nat} (check : Option Stop) (source : Except Stop (BitVec w))
    (convert : BitVec w → List (Conv b)) (write : State → List (Conv b) → State) (len : Nat) (s : State) : Out :=
  match check with
  | some stop => stop.out
  | none =>
    match source with
    | .error stop => stop.out
    | .ok v =>
      match s.simdStop (unionFlags (convert v)) with
      | some stop => stop.out
      | none => .next ((write (s.raiseFlags (unionFlags (convert v))) (convert v)).retire len)

end Sys2Proof.Machine
end

