-- ==== Sys2Proof/Machine/Operands.lean ====
section
/-! DEFINITION. Operand 2: the effective and the linear address of a memory operand, `MemRead`, and the source fetch of
each kind of form (`20_memory.md` R62 to R73, `30_encoding.md` R104 to R109). -/

namespace Sys2Proof.Machine

def Scale.factor : Scale → Nat
  | .x1 => 1
  | .x2 => 2
  | .x4 => 4
  | .x8 => 8

/-- A displacement, sign-extended (R109). -/
def Disp.value : Disp → Word
  | .none => 0
  | .disp8 v => v.signExtend 64
  | .disp32 v => v.signExtend 64

/-- Contribution of a SIB index (R70). -/
def indexValue (s : State) : Option (GenReg × Scale) → Word
  | none => 0
  | some (r, sc) => s.gpr[r] * BitVec.ofNat 64 (Scale.factor sc)

/-- The base register of a descriptor, if any (R107, R108). -/
def Mem.base : Mem → Option GenReg
  | .based b _ => some b
  | .sib b _ _ => some b
  | _ => none

/-- `base + index * scale + disp` before truncation to the address size; `len` is `ilen`, for RIP-relative (R70, R71). -/
def Mem.sum (m : Mem) (len : Nat) (s : State) : Word :=
  match m with
  | .based b d => s.gpr[b] + Disp.value d
  | .sib b i d => s.gpr[b] + indexValue s i + Disp.value d
  | .sibNoBase i d => indexValue s i + d.signExtend 64
  | .ripRel d => s.pc + BitVec.ofNat 64 len + d.signExtend 64
  | .abs d => d.signExtend 64

/-- Truncation to 32 bits, zero-extended. -/
def low32 (v : Word) : Word := (v.setWidth 32).setWidth 64

/-- The effective address of R70: address size 64, or 32 with `67` and outside 64-bit mode (R95). -/
def Mem.effective (m : Mem) (addr32 : Bool) (len : Nat) (s : State) : Word :=
  if addr32 || !s.mode64 then low32 (Mem.sum m len s) else Mem.sum m len s

/-- The segment override that counts: in 64-bit mode CS, SS, DS and ES overrides are ignored (R93, R121; log entry 10). -/
def countedOverride (m64 : Bool) : Option Seg → Option Seg
  | some .fs => some .fs
  | some .gs => some .gs
  | some g => if m64 then none else some g
  | none => none

/-- The segment of a memory operand: the override that counts, else SS for a base numbered 4 or 5, else DS (R109, R121). -/
def Mem.segment (m64 : Bool) (m : Mem) (override : Option Seg) : Seg :=
  (countedOverride m64 override).getD (if Mem.base m = some 4 ∨ Mem.base m = some 5 then .ss else .ds)

/-- `SegBase`: FS.base and GS.base in 64-bit mode, zero otherwise (R48). -/
def segBase (s : State) (g : Seg) : Word :=
  if s.mode64 then
    match g with
    | .fs => s.fsBase
    | .gs => s.gsBase
    | _ => 0
  else 0

/-- The linear address of a memory operand (R70). -/
def Mem.linear (m : Mem) (override : Option Seg) (addr32 : Bool) (len : Nat) (s : State) : Word :=
  let a := segBase s (Mem.segment s.mode64 m override) + Mem.effective m addr32 len s
  if s.mode64 then a else low32 a

/-- Is a linear address canonical: bits `63 : LinearAddressBits-1` all equal (R72). -/
def canonical (bits : Nat) (a : Word) : Bool :=
  decide (a.sshiftRight (bits - 1) = 0) || decide (a.sshiftRight (bits - 1) = BitVec.allOnes 64)

/-- A fault through a segment: `#SS(0)` through SS, else `#GP(0)` (R72, R73). -/
def segmentFault (g : Seg) : Fault := if g = .ss then .stackSegment else .generalProtection

/-- The answers to a load of `n` bytes at `a`, in address order, each with its address (R62). -/
def loadAnswers (s : State) (a : Word) (n : Nat) : List (Word × Answer) :=
  (List.range n).map fun k =>
    (byteAddress s.mode64 a k, Admission.answer s.loadMap (byteAddress s.mode64 a k).toNat)

/-- Does some byte's answer lie outside a segment? -/
def anySegmentFault (l : List (Word × Answer)) : Bool := l.any fun x => decide (x.2 = .segmentFault)

/-- The page fault of the first byte that has one (R73). -/
def firstPageFault (s : State) : List (Word × Answer) → Option Fault
  | [] => none
  | (a, .pageFault p r) :: _ => some (.pageFault (pageFaultCode p (decide (s.cpl = 3)) r false) a)
  | _ :: t => firstPageFault s t

/-- The optional alignment check of R68, for the forms without an alignment requirement. A misaligned `m64` raises `#AC(0)`;
for the VEX `m128`/`m256` forms both outcomes are admitted (U13): a free value decides. -/
def alignmentChecked (s : State) (a : Word) (n : Nat) : Bool :=
  s.am && s.ac && decide (s.cpl = 3) && decide (a.toNat % n ≠ 0) &&
  (decide (n = 8) || Config.alignmentCheckFires s.choices)

/-- Whether a load of `n` bytes at the linear address `a` through segment `g` faults, in the order of step 6 of R263:
non-canonical or out of segment, misaligned legacy `m128` (`aligned`, R66), page fault, alignment check. -/
def loadFault (s : State) (g : Seg) (a : Word) (n : Nat) (aligned : Bool) : Option Fault :=
  if s.mode64 && !canonical s.params.linearAddressBits a then some (segmentFault g)
  else if anySegmentFault (loadAnswers s a n) then some (segmentFault g)
  else if aligned && decide (a.toNat % 16 ≠ 0) then some .generalProtection
  else
    match firstPageFault s (loadAnswers s a n) with
    | some f => some f
    | none => if !aligned && alignmentChecked s a n then some .alignmentCheck else none

/-- `MemRead(addr, w/8)` (R62, R64). -/
def memRead (w : Nat) (s : State) (g : Seg) (a : Word) (aligned : Bool) : Except Stop (BitVec w) :=
  match loadFault s g a (w / 8) aligned with
  | some f => .error (.fault f)
  | none => .ok (ofBytes w (readBytes s.mem s.mode64 a (w / 8)))

/-- `MemWrite`, the mirror image of `MemRead`, defined for completeness: no instruction in scope uses it (R12, R62). -/
def memWrite {w : Nat} (s : State) (g : Seg) (a : Word) (aligned : Bool) (v : BitVec w) : Except Stop State :=
  match loadFault s g a (w / 8) aligned with
  | some f => .error (.fault f)
  | none =>
    .ok { s with
      mem := (toBytes v).zipIdx.foldl (fun m bk => m.write (byteAddress s.mode64 a bk.2).toNat bk.1) s.mem }

/-- The load of a memory operand: its linear address, then `MemRead` (R70, R75). -/
def loadOperand (w : Nat) (aligned : Bool) (seg : Option Seg) (addr32 : Bool) (len : Nat) (m : Mem) (s : State) :
    Except Stop (BitVec w) :=
  memRead w s (Mem.segment s.mode64 m seg) (Mem.linear m seg addr32 len s) aligned

/-- Source of a legacy form: the low `w` bits of a vector register, or `w/8` bytes of memory (R106, R180 step 3). -/
def legacySource (w : Nat) (aligned : Bool) (e : LegacyEnc) (len : Nat) (src : RM 16) (s : State) :
    Except Stop (BitVec w) :=
  match src with
  | .reg r => .ok (s.vec w r)
  | .mem m => loadOperand w aligned e.seg e.addr32 len m s

/-- Source of a VEX form; its memory operand has no alignment requirement (R67). -/
def vexSource (w : Nat) (e : VexEnc) (len : Nat) (src : RM 16) (s : State) : Except Stop (BitVec w) :=
  match src with
  | .reg r => .ok (s.vec w r)
  | .mem m => loadOperand w false e.seg e.addr32 len m s

/-- Source of CVTPI2PD and CVTPI2PS: `MM[s]` or 8 bytes of memory (R220, R221). -/
def mmxSource (e : LegacyEnc) (len : Nat) (src : RM 8) (s : State) : Except Stop (BitVec 64) :=
  match src with
  | .reg r => .ok (s.mm r)
  | .mem m => loadOperand 64 false e.seg e.addr32 len m s

/-- Is operand 2 a register (`ModRM.mod = 11b`)? -/
def RM.isReg {n : Nat} : RM n → Bool
  | .reg _ => true
  | .mem _ => false

end Sys2Proof.Machine
end

