-- ==== Sys2Proof/Machine/CvtDq.lean ====
section
/-! DEFINITION. CVTDQ2PD and CVTDQ2PS with their VEX forms (`41_cvtdq2pd_cvtdq2ps.md` R181 to R186). -/

namespace Sys2Proof.Machine

/-- CVTDQ2PD xmm1, xmm2/m64 (R181). -/
def execCvtdq2pd (e : LegacyEnc) (d : VecReg) (src : RM 16) (s : State) : Out :=
  let len := (Instr.cvtdq2pd e d src).len
  runConversion (s.admitLegacy s.params.sse2) (legacySource 64 false e len src s) (convLanes 2 i32ToF64)
    (fun t rs => t.writeXmm d (packLanes 128 rs)) len s

/-- VCVTDQ2PD xmm1, xmm2/m64 (R182). -/
def execVcvtdq2pd128 (e : VexEnc) (d : VecReg) (src : RM 16) (s : State) : Out :=
  let len := (Instr.vcvtdq2pd128 e d src).len
  runConversion s.admitVex (vexSource 64 e len src s) (convLanes 2 i32ToF64)
    (fun t rs => t.writeYmm d (packLanes 256 rs)) len s

/-- VCVTDQ2PD ymm1, xmm2/m128 (R183). -/
def execVcvtdq2pd256 (e : VexEnc) (d : VecReg) (src : RM 16) (s : State) : Out :=
  let len := (Instr.vcvtdq2pd256 e d src).len
  runConversion s.admitVex (vexSource 128 e len src s) (convLanes 4 i32ToF64)
    (fun t rs => t.writeYmm d (packLanes 256 rs)) len s

/-- CVTDQ2PS xmm1, xmm2/m128 (R184). -/
def execCvtdq2ps (e : LegacyEnc) (d : VecReg) (src : RM 16) (s : State) : Out :=
  let len := (Instr.cvtdq2ps e d src).len
  runConversion (s.admitLegacy s.params.sse2) (legacySource 128 true e len src s) (convLanes 4 (i32ToF32 s.rc))
    (fun t rs => t.writeXmm d (packLanes 128 rs)) len s

/-- VCVTDQ2PS xmm1, xmm2/m128 (R185). -/
def execVcvtdq2ps128 (e : VexEnc) (d : VecReg) (src : RM 16) (s : State) : Out :=
  let len := (Instr.vcvtdq2ps128 e d src).len
  runConversion s.admitVex (vexSource 128 e len src s) (convLanes 4 (i32ToF32 s.rc))
    (fun t rs => t.writeYmm d (packLanes 256 rs)) len s

/-- VCVTDQ2PS ymm1, ymm2/m256 (R186). -/
def execVcvtdq2ps256 (e : VexEnc) (d : VecReg) (src : RM 16) (s : State) : Out :=
  let len := (Instr.vcvtdq2ps256 e d src).len
  runConversion s.admitVex (vexSource 256 e len src s) (convLanes 8 (i32ToF32 s.rc))
    (fun t rs => t.writeYmm d (packLanes 256 rs)) len s

end Sys2Proof.Machine
end

