-- ==== Sys2Proof/Machine/CvtPd.lean ====
section
/-! DEFINITION. CVTPD2DQ, CVTPD2PI and CVTPD2PS with their VEX forms (`42_cvtpd2dq_cvtpd2pi_cvtpd2ps.md` R200 to R206). -/

namespace Sys2Proof.Machine

/-- CVTPD2DQ xmm1, xmm2/m128: bits 127:64 of the destination become 0 (R200). -/
def execCvtpd2dq (e : LegacyEnc) (d : VecReg) (src : RM 16) (s : State) : Out :=
  let len := (Instr.cvtpd2dq e d src).len
  runConversion (s.admitLegacy s.params.sse2) (legacySource 128 true e len src s) (convLanes 2 (f64ToI32 s.rc s.daz))
    (fun t rs => t.writeXmm d (packLanes 128 rs)) len s

/-- VCVTPD2DQ xmm1, xmm2/m128 (R201). -/
def execVcvtpd2dq128 (e : VexEnc) (d : VecReg) (src : RM 16) (s : State) : Out :=
  let len := (Instr.vcvtpd2dq128 e d src).len
  runConversion s.admitVex (vexSource 128 e len src s) (convLanes 2 (f64ToI32 s.rc s.daz))
    (fun t rs => t.writeYmm d (packLanes 256 rs)) len s

/-- VCVTPD2DQ xmm1, ymm2/m256 (R202). -/
def execVcvtpd2dq256 (e : VexEnc) (d : VecReg) (src : RM 16) (s : State) : Out :=
  let len := (Instr.vcvtpd2dq256 e d src).len
  runConversion s.admitVex (vexSource 256 e len src s) (convLanes 4 (f64ToI32 s.rc s.daz))
    (fun t rs => t.writeYmm d (packLanes 256 rs)) len s

/-- CVTPD2PI mm, xmm/m128: with `MMXTransition()` (R203). -/
def execCvtpd2pi (e : LegacyEnc) (d : MmxReg) (src : RM 16) (s : State) : Out :=
  let len := (Instr.cvtpd2pi e d src).len
  runConversion (s.admitMmx s.params.sse2 true) (legacySource 128 true e len src s) (convLanes 2 (f64ToI32 s.rc s.daz))
    (fun t rs => (t.writeMm d (packLanes 64 rs)).mmxTransition) len s

/-- CVTPD2PS xmm1, xmm2/m128: bits 127:64 of the destination become 0 (R204). -/
def execCvtpd2ps (e : LegacyEnc) (d : VecReg) (src : RM 16) (s : State) : Out :=
  let len := (Instr.cvtpd2ps e d src).len
  runConversion (s.admitLegacy s.params.sse2) (legacySource 128 true e len src s)
    (convLanes 2 (f64ToF32 s.rc s.daz s.fz s.um)) (fun t rs => t.writeXmm d (packLanes 128 rs)) len s

/-- VCVTPD2PS xmm1, xmm2/m128 (R205). -/
def execVcvtpd2ps128 (e : VexEnc) (d : VecReg) (src : RM 16) (s : State) : Out :=
  let len := (Instr.vcvtpd2ps128 e d src).len
  runConversion s.admitVex (vexSource 128 e len src s)
    (convLanes 2 (f64ToF32 s.rc s.daz s.fz s.um)) (fun t rs => t.writeYmm d (packLanes 256 rs)) len s

/-- VCVTPD2PS xmm1, ymm2/m256 (R206). -/
def execVcvtpd2ps256 (e : VexEnc) (d : VecReg) (src : RM 16) (s : State) : Out :=
  let len := (Instr.vcvtpd2ps256 e d src).len
  runConversion s.admitVex (vexSource 256 e len src s)
    (convLanes 4 (f64ToF32 s.rc s.daz s.fz s.um)) (fun t rs => t.writeYmm d (packLanes 256 rs)) len s

end Sys2Proof.Machine
end

