-- ==== Sys2Proof/Machine/CvtPi.lean ====
section
/-! DEFINITION. CVTPI2PD and CVTPI2PS (`43_cvtpi2pd_cvtpi2ps.md` R220, R221). -/

namespace Sys2Proof.Machine

/-- CVTPI2PD xmm, mm/m64: the check for a pending x87 exception and `MMXTransition()` belong to the register form only
(R220). -/
def execCvtpi2pd (e : LegacyEnc) (d : VecReg) (src : RM 8) (s : State) : Out :=
  let len := (Instr.cvtpi2pd e d src).len
  runConversion (s.admitMmx s.params.sse2 (RM.isReg src)) (mmxSource e len src s) (convLanes 2 i32ToF64)
    (fun t rs =>
      let t' := t.writeXmm d (packLanes 128 rs)
      if RM.isReg src then t'.mmxTransition else t') len s

/-- CVTPI2PS xmm, mm/m64: bits 127:64 of the destination stay, both operand forms perform `MMXTransition()` (R221). -/
def execCvtpi2ps (e : LegacyEnc) (d : VecReg) (src : RM 8) (s : State) : Out :=
  let len := (Instr.cvtpi2ps e d src).len
  runConversion (s.admitMmx s.params.sse true) (mmxSource e len src s) (convLanes 2 (i32ToF32 s.rc))
    (fun t rs => (t.writeXmmLow d (packLanes 64 rs)).mmxTransition) len s

end Sys2Proof.Machine
end

