-- ==== Sys2Proof/Machine/CvtPs.lean ====
section
/-! DEFINITION. CVTPS2DQ, CVTPS2PD and CVTPS2PI with their VEX forms (`44_cvtps2dq_cvtps2pd_cvtps2pi.md` R230 to R236). -/

namespace Sys2Proof.Machine

/-- CVTPS2DQ xmm1, xmm2/m128 (R230). -/
def execCvtps2dq (e : LegacyEnc) (d : VecReg) (src : RM 16) (s : State) : Out :=
  let len := (Instr.cvtps2dq e d src).len
  runConversion (s.admitLegacy s.params.sse2) (legacySource 128 true e len src s) (convLanes 4 (f32ToI32 s.rc s.daz))
    (fun t rs => t.writeXmm d (packLanes 128 rs)) len s

/-- VCVTPS2DQ xmm1, xmm2/m128 (R231). -/
def execVcvtps2dq128 (e : VexEnc) (d : VecReg) (src : RM 16) (s : State) : Out :=
  let len := (Instr.vcvtps2dq128 e d src).len
  runConversion s.admitVex (vexSource 128 e len src s) (convLanes 4 (f32ToI32 s.rc s.daz))
    (fun t rs => t.writeYmm d (packLanes 256 rs)) len s

/-- VCVTPS2DQ ymm1, ymm2/m256 (R232). -/
def execVcvtps2dq256 (e : VexEnc) (d : VecReg) (src : RM 16) (s : State) : Out :=
  let len := (Instr.vcvtps2dq256 e d src).len
  runConversion s.admitVex (vexSource 256 e len src s) (convLanes 8 (f32ToI32 s.rc s.daz))
    (fun t rs => t.writeYmm d (packLanes 256 rs)) len s

/-- CVTPS2PD xmm1, xmm2/m64 (R233). -/
def execCvtps2pd (e : LegacyEnc) (d : VecReg) (src : RM 16) (s : State) : Out :=
  let len := (Instr.cvtps2pd e d src).len
  runConversion (s.admitLegacy s.params.sse2) (legacySource 64 false e len src s) (convLanes 2 (f32ToF64 s.daz))
    (fun t rs => t.writeXmm d (packLanes 128 rs)) len s

/-- VCVTPS2PD xmm1, xmm2/m64 (R234). -/
def execVcvtps2pd128 (e : VexEnc) (d : VecReg) (src : RM 16) (s : State) : Out :=
  let len := (Instr.vcvtps2pd128 e d src).len
  runConversion s.admitVex (vexSource 64 e len src s) (convLanes 2 (f32ToF64 s.daz))
    (fun t rs => t.writeYmm d (packLanes 256 rs)) len s

/-- VCVTPS2PD ymm1, xmm2/m128 (R235). -/
def execVcvtps2pd256 (e : VexEnc) (d : VecReg) (src : RM 16) (s : State) : Out :=
  let len := (Instr.vcvtps2pd256 e d src).len
  runConversion s.admitVex (vexSource 128 e len src s) (convLanes 4 (f32ToF64 s.daz))
    (fun t rs => t.writeYmm d (packLanes 256 rs)) len s

/-- CVTPS2PI mm, xmm/m64: with `MMXTransition()` (R236). -/
def execCvtps2pi (e : LegacyEnc) (d : MmxReg) (src : RM 16) (s : State) : Out :=
  let len := (Instr.cvtps2pi e d src).len
  runConversion (s.admitMmx s.params.sse true) (legacySource 64 false e len src s) (convLanes 2 (f32ToI32 s.rc s.daz))
    (fun t rs => (t.writeMm d (packLanes 64 rs)).mmxTransition) len s

end Sys2Proof.Machine
end

