-- ==== Sys2Proof/Machine/CvtSd.lean ====
section
/-! DEFINITION. CVTSD2SI and VCVTSD2SI (`45_cvtsd2si.md` R250 to R253). The 64-bit rows follow the page's Operation block:
outside 64-bit mode the operand size is 32 bits, whatever W is. -/

namespace Sys2Proof.Machine

/-- CVTSD2SI r32, xmm/m64 (R250). -/
def execCvtsd2si32 (e : LegacyEnc) (d : GenReg) (src : RM 16) (s : State) : Out :=
  let len := (Instr.cvtsd2si32 e d src).len
  runConversion (s.admitLegacy s.params.sse2) (legacySource 64 false e len src s) (convLanes 1 (f64ToI32 s.rc s.daz))
    (fun t rs => t.writeGpr32 d (packLanes 32 rs)) len s

/-- CVTSD2SI r64, xmm/m64 (R251). -/
def execCvtsd2si64 (e : LegacyEnc) (d : GenReg) (src : RM 16) (s : State) : Out :=
  let len := (Instr.cvtsd2si64 e d src).len
  if s.mode64 then
    runConversion (s.admitLegacy s.params.sse2) (legacySource 64 false e len src s) (convLanes 1 (f64ToI64 s.rc s.daz))
      (fun t rs => t.writeGpr64 d (packLanes 64 rs)) len s
  else
    runConversion (s.admitLegacy s.params.sse2) (legacySource 64 false e len src s) (convLanes 1 (f64ToI32 s.rc s.daz))
      (fun t rs => t.writeGpr32 d (packLanes 32 rs)) len s

/-- VCVTSD2SI r32, xmm1/m64 (R252). -/
def execVcvtsd2si32 (e : VexEnc) (d : GenReg) (src : RM 16) (s : State) : Out :=
  let len := (Instr.vcvtsd2si32 e d src).len
  runConversion s.admitVex (vexSource 64 e len src s) (convLanes 1 (f64ToI32 s.rc s.daz))
    (fun t rs => t.writeGpr32 d (packLanes 32 rs)) len s

/-- VCVTSD2SI r64, xmm1/m64 (R253). -/
def execVcvtsd2si64 (e : VexEnc) (d : GenReg) (src : RM 16) (s : State) : Out :=
  let len := (Instr.vcvtsd2si64 e d src).len
  if s.mode64 then
    runConversion s.admitVex (vexSource 64 e len src s) (convLanes 1 (f64ToI64 s.rc s.daz))
      (fun t rs => t.writeGpr64 d (packLanes 64 rs)) len s
  else
    runConversion s.admitVex (vexSource 64 e len src s) (convLanes 1 (f64ToI32 s.rc s.daz))
      (fun t rs => t.writeGpr32 d (packLanes 32 rs)) len s

end Sys2Proof.Machine
end

