-- ==== Sys2Proof/Machine/Dispatch.lean ====
section
/-! DEFINITION. The meaning of an instruction: one direct call for each of the 26 rows. -/

namespace Sys2Proof.Machine

def exec (i : Instr) (s : State) : Host.Outcome State Fault Refusal :=
  match i with
  | .cvtdq2pd e d src => Sys2Proof.Machine.execCvtdq2pd e d src s
  | .vcvtdq2pd128 e d src => Sys2Proof.Machine.execVcvtdq2pd128 e d src s
  | .vcvtdq2pd256 e d src => Sys2Proof.Machine.execVcvtdq2pd256 e d src s
  | .cvtdq2ps e d src => Sys2Proof.Machine.execCvtdq2ps e d src s
  | .vcvtdq2ps128 e d src => Sys2Proof.Machine.execVcvtdq2ps128 e d src s
  | .vcvtdq2ps256 e d src => Sys2Proof.Machine.execVcvtdq2ps256 e d src s
  | .cvtpd2dq e d src => Sys2Proof.Machine.execCvtpd2dq e d src s
  | .vcvtpd2dq128 e d src => Sys2Proof.Machine.execVcvtpd2dq128 e d src s
  | .vcvtpd2dq256 e d src => Sys2Proof.Machine.execVcvtpd2dq256 e d src s
  | .cvtpd2pi e d src => Sys2Proof.Machine.execCvtpd2pi e d src s
  | .cvtpd2ps e d src => Sys2Proof.Machine.execCvtpd2ps e d src s
  | .vcvtpd2ps128 e d src => Sys2Proof.Machine.execVcvtpd2ps128 e d src s
  | .vcvtpd2ps256 e d src => Sys2Proof.Machine.execVcvtpd2ps256 e d src s
  | .cvtpi2pd e d src => Sys2Proof.Machine.execCvtpi2pd e d src s
  | .cvtpi2ps e d src => Sys2Proof.Machine.execCvtpi2ps e d src s
  | .cvtps2dq e d src => Sys2Proof.Machine.execCvtps2dq e d src s
  | .vcvtps2dq128 e d src => Sys2Proof.Machine.execVcvtps2dq128 e d src s
  | .vcvtps2dq256 e d src => Sys2Proof.Machine.execVcvtps2dq256 e d src s
  | .cvtps2pd e d src => Sys2Proof.Machine.execCvtps2pd e d src s
  | .vcvtps2pd128 e d src => Sys2Proof.Machine.execVcvtps2pd128 e d src s
  | .vcvtps2pd256 e d src => Sys2Proof.Machine.execVcvtps2pd256 e d src s
  | .cvtps2pi e d src => Sys2Proof.Machine.execCvtps2pi e d src s
  | .cvtsd2si32 e d src => Sys2Proof.Machine.execCvtsd2si32 e d src s
  | .cvtsd2si64 e d src => Sys2Proof.Machine.execCvtsd2si64 e d src s
  | .vcvtsd2si32 e d src => Sys2Proof.Machine.execVcvtsd2si32 e d src s
  | .vcvtsd2si64 e d src => Sys2Proof.Machine.execVcvtsd2si64 e d src s

end Sys2Proof.Machine
end

