-- ==== Sys2Proof/Machine/Fetch.lean ====
section
/-! DEFINITION. Instruction fetch (`20_memory.md` R60, R64, R69, R73, `30_encoding.md` R92), the step on the decoder's
answer, and the launch of a program (`70_reset_and_hazards.md` R300 to R307). -/

namespace Sys2Proof.Machine

/-- The first address above the address space (R60). -/
def State.addressLimit (s : State) : Nat := if s.mode64 then 2 ^ 64 else 2 ^ 32

/-- The launch memory's answer to a fetch: `none` where it is admitted (R73). -/
def fetchFault (s : State) (a : Nat) : Option Fault :=
  match Admission.answer s.fetchMap a with
  | .granted => none
  | .pageFault p r => some (.pageFault (pageFaultCode p (decide (s.cpl = 3)) r true) (BitVec.ofNat 64 a))
  | .segmentFault => some .generalProtection

/-- The bytes that can be fetched from address `a` on, at most `n`, and what stops a fetch of one more: a refused fetch
(R73), the top of the address space (R34), or the 15-byte limit (`#GP(0)`, R92). -/
def fetchFrom (s : State) (a : Nat) : Nat → List Byte × Stop
  | 0 => ([], .fault .generalProtection)
  | n + 1 =>
    if s.addressLimit ≤ a then ([], .refuse .wrapsAddressSpace)
    else
      match fetchFault s a with
      | some f => ([], .fault f)
      | none => (s.mem.read a :: (fetchFrom s (a + 1) n).1, (fetchFrom s (a + 1) n).2)

/-- The fetch window at `pc`. -/
def fetchWindow (s : State) : List Byte × Stop := fetchFrom s s.pc.toNat maxLen

/-- What the decoder reads at `pc`, in the machine's mode. -/
def decodeAt (s : State) : Decoded := decode s.mode64 (fetchWindow s).1

/-! ### INIT and launch -/

/-- INIT, as opposed to power-up: MXCSR, the vector registers and the x87 state keep their values (R305), the other registers
and the mode are as after reset. That memory, its admission, the parameters and the model's counter stay is log entry 33. -/
def initReset (s : State) : State :=
  { State.reset with
    ymm := s.ymm
    x87 := s.x87
    x87Top := s.x87Top
    x87Tag := s.x87Tag
    x87Pending := s.x87Pending
    mxcsr := s.mxcsr
    params := s.params
    mem := s.mem
    fetchMap := s.fetchMap
    loadMap := s.loadMap
    choices := s.choices }

/-- The control state of a launch: 64-bit mode and the enable bits of R47 at their launch values, CPL 0, a flat CS. No other
state changes (R300, R307; log entry 1). -/
def launchControls (s : State) : State :=
  { s with
    mode := .bits64
    cr0 := (s.cr0 ||| 0x00000020#32) &&& ~~~0x0004000C#32
    cr4 := s.cr4 ||| 0x00040600#32
    xcr0 := s.xcr0 ||| 6#64
    cpl := 0#2
    csBase := 0#64 }

/-- Places program text at `pc`: `Admit(a, 1, fetch)` holds exactly for its bytes (R302). The text is to fit below the top of
the address space, which `loadText` asks first. -/
def placeText (s : State) (text : List Byte) : State :=
  { s with
    mem := s.mem.writeBytes s.pc text
    fetchMap := [{ base := s.pc.toNat, size := text.length, answer := .granted }] }

/-- Does the text end at or below the top of the address space? (R302, D21) -/
def textFits (s : State) (text : List Byte) : Bool := decide (s.pc.toNat + text.length ≤ s.addressLimit)

/-- Loads program text at `pc`; a text that wraps around the top of the address space is refused whole (R302, D21). -/
def loadText (s : State) (text : List Byte) : Except Refusal State :=
  if textFits s text then .ok (placeText s text) else .error .wrapsAddressSpace

/-- A machine that no program of this spec can run on is launched first (R51, R307). -/
def launch (s : State) : State := if s.mode.modelled then s else launchControls s

end Sys2Proof.Machine
end

