-- ==== Sys2Proof/Machine/Step.lean ====
section
/-! DEFINITION. One step of the machine: fetch and decode at `pc`, execute (R17, R180, R304). -/

namespace Sys2Proof.Machine

/-- One step. The modes of R300 that are not modelled are refused. An instruction that the fetch window cuts short ends as
the window does (R73, R92); an encoding `#UD` comes after the fetch of the bytes it rests on (R263). -/
def step (s : State) : Host.Outcome State Fault Refusal :=
  if s.mode.modelled then
    match decodeAt s with
    | .ok i _ => exec i s
    | .invalidOpcode => raise .invalidOpcode
    | .refused r => .refused (.bytes r)
    | .short => (fetchWindow s).2.out
  else .refused .modeOutOfScope

/-- The state in which the next step fetches and runs the instruction of a word numbered as `opcode_table.json` numbers it
(log entries 1 and 2): its bytes, then zeros up to 15 bytes, are the program text at `pc`. In a mode that this spec refuses,
real-address mode after reset among them, no program of its instructions runs: there the launch of R300 to R307 comes
first. -/
def State.withFetchWord (s : State) (nbits w : Nat) : State :=
  placeText (launch s) (tableBytes (w % 2 ^ nbits))

end Sys2Proof.Machine
end

