-- ==== Sys2Proof/Machine/Run.lean ====
section
/-! DEFINITION. A run: decode at `pc`, execute, repeat, and its three ends (`70_reset_and_hazards.md` R304). -/

namespace Sys2Proof.Machine

/-- How a run stands (R304). -/
inductive RunOutcome where
  /-- (a) The normal end: `pc` is the address just past the text; the observation is the state then. -/
  | finished (s : State)
  /-- (b) The first instruction that faulted, and the faulted state (R262). -/
  | faulted (f : Fault) (s : State)
  /-- (c) The first refusal, and the state at it; also the refusal of a text that wraps (R302). -/
  | refused (r : Refusal) (s : State)
  /-- The bound on the number of steps was reached first. -/
  | running (s : State)
deriving DecidableEq, Repr

/-- The address just past a text of `len` bytes that begins at `pc`, modulo the address width (R302, R304, R34). -/
def textEnd (s : State) (len : Nat) : Word := s.nextPc len

/-- At most `n` steps of a run of the text that ends at `fin`. The end is tested before a step is taken, so that reaching it is
told apart from the page fault of a fetch there. -/
def run (fin : Word) : Nat → State → RunOutcome
  | 0, s => if s.pc = fin then .finished s else .running s
  | n + 1, s =>
    if s.pc = fin then .finished s
    else
      match step s with
      | .next t => run fin n t
      | .fault f => .faulted f (s.atFault f)
      | .refused r => .refused r s

/-- A run of `text`, loaded at `pc` in a launched machine. A text that wraps is refused before its first instruction (R302,
R304, D21). -/
def runText (text : List Byte) (n : Nat) (s : State) : RunOutcome :=
  match loadText s text with
  | .ok t => run (textEnd s text.length) n t
  | .error r => .refused r s

end Sys2Proof.Machine
end

