-- ==== Sys2Proof/Safety.lean ====
section
/-! DEFINITION. The terms that statements about the machine use: when a form is enabled, what a completed instruction leaves
unchanged, and the invariant of a run. -/

namespace Sys2Proof.Machine

/-- No `#UD` and no `#NM` condition of R264, R266, R267 holds for a legacy form with this CPUID feature, in a mode of R300. -/
structure LegacyReady (s : State) (feature : Bool) : Prop where
  em : s.em = false
  osfxsr : s.osfxsr = true
  feature : feature = true
  mode : s.mode = .bits64 ∨ s.mode = .bits32
  ts : s.ts = false

/-- No `#UD` and no `#NM` condition of R265, R266 holds for a VEX form, in a mode of R300. -/
structure VexReady (s : State) : Prop where
  osxsave : s.osxsave = true
  xcr0 : s.xcr0.extractLsb' 1 2 = 3
  avx : s.params.avx = true
  mode : s.mode = .bits64 ∨ s.mode = .bits32
  ts : s.ts = false

/-- Every member of the flag set has its MXCSR mask bit set (R39, R171). -/
structure Masked (s : State) (f : FpFlags) : Prop where
  invalid : f.invalid = true → s.mxcsr.getLsbD 7 = true
  denormal : f.denormal = true → s.mxcsr.getLsbD 8 = true
  overflow : f.overflow = true → s.mxcsr.getLsbD 10 = true
  underflow : f.underflow = true → s.mxcsr.getLsbD 11 = true
  precision : f.precision = true → s.mxcsr.getLsbD 12 = true

/-- Flags, control registers, segment bases, mode, parameters, admission maps and every byte of memory are unchanged. -/
structure SameSystem (s t : State) : Prop where
  eflags : t.eflags = s.eflags
  cr0 : t.cr0 = s.cr0
  cr2 : t.cr2 = s.cr2
  cr4 : t.cr4 = s.cr4
  xcr0 : t.xcr0 = s.xcr0
  cpl : t.cpl = s.cpl
  csBase : t.csBase = s.csBase
  fsBase : t.fsBase = s.fsBase
  gsBase : t.gsBase = s.gsBase
  mode : t.mode = s.mode
  params : t.params = s.params
  fetchMap : t.fetchMap = s.fetchMap
  loadMap : t.loadMap = s.loadMap
  memory : ∀ a : Nat, t.mem.read a = s.mem.read a

/-- Every vector register outside `except` is unchanged. -/
def SameYmm (s t : State) (except : Option VecReg) : Prop := ∀ r : VecReg, except ≠ some r → t.ymm[r] = s.ymm[r]

/-- Every general register outside `except` is unchanged. -/
def SameGpr (s t : State) (except : Option GenReg) : Prop := ∀ r : GenReg, except ≠ some r → t.gpr[r] = s.gpr[r]

/-- Every x87 data register outside `except` is unchanged. -/
def SameX87Data (s t : State) (except : Option MmxReg) : Prop := ∀ r : MmxReg, except ≠ some r → t.x87[r] = s.x87[r]

/-- The x87 state is unchanged: data registers, TOP, TAG and the pending flag. -/
structure SameX87 (s t : State) : Prop where
  data : SameX87Data s t none
  top : t.x87Top = s.x87Top
  tag : t.x87Tag = s.x87Tag
  pending : t.x87Pending = s.x87Pending

/-- `MMXTransition()` has been performed (R28): TOP and TAG are 0, and the pending flag is as before. -/
structure Transitioned (s t : State) : Prop where
  top : t.x87Top = 0
  tag : t.x87Tag = 0
  pending : t.x87Pending = s.x87Pending

/-- An instruction of length `len` has completed with the flag set `f`: `pc` has moved past it (R34), the flags of `f` have been
ORed into MXCSR and its other bits kept (R171), and the system state is unchanged. -/
structure Committed (s t : State) (f : FpFlags) (len : Nat) : Prop where
  pc : t.pc = s.nextPc len
  mxcsr : t.mxcsr = s.mxcsr ||| f.bits.setWidth 32
  sys : SameSystem s t

/-- A completed form with a vector destination and no MMX operand: every register but `YMM[d]` is unchanged. -/
structure VecCommit (s t : State) (d : VecReg) (f : FpFlags) (len : Nat) : Prop where
  commit : Committed s t f len
  ymm : SameYmm s t (some d)
  gpr : SameGpr s t none
  x87 : SameX87 s t

/-- A completed form with an MMX destination (R203, R236): every vector and general register and every x87 data register but
number `d` is unchanged, the transition has been performed, and bits 79:64 of register `d` are ones (R25). -/
structure MmxCommit (s t : State) (d : MmxReg) (f : FpFlags) (len : Nat) : Prop where
  commit : Committed s t f len
  ymm : SameYmm s t none
  gpr : SameGpr s t none
  x87 : SameX87Data s t (some d)
  high : t.x87[d].extractLsb' 64 16 = BitVec.allOnes 16
  transition : Transitioned s t

/-- A completed form with a general-register destination (R250 to R253): every other register is unchanged. -/
structure GprCommit (s t : State) (d : GenReg) (f : FpFlags) (len : Nat) : Prop where
  commit : Committed s t f len
  ymm : SameYmm s t none
  gpr : SameGpr s t (some d)
  x87 : SameX87 s t

/-- A completed form with an MMX source and the transition (R220 register form, R221): every register but `YMM[d]` is
unchanged, the x87 data registers among them, and TOP and TAG are 0. -/
structure MmxSourceCommit (s t : State) (d : VecReg) (f : FpFlags) (len : Nat) : Prop where
  commit : Committed s t f len
  ymm : SameYmm s t (some d)
  gpr : SameGpr s t none
  x87 : SameX87Data s t none
  transition : Transitioned s t

/-- The invariant of a run: memory in canonical form, the reserved bits of MXCSR zero (R36, R301), EIP zero-extended outside
64-bit mode (R33). -/
structure State.Inv (s : State) : Prop where
  mem : s.mem.wf = true
  mxcsr : s.mxcsr.extractLsb' 16 16 = 0
  pc : s.mode = .bits32 → s.pc.toNat < 2 ^ 32

/-- Is the instruction of the VEX shape? (R91) -/
def vexShape (i : Instr) : Bool := i.fields.form.vex

/-- The CPUID feature flag that a legacy form needs: SSE for CVTPI2PS and CVTPS2PI, SSE2 for the others (R264, R267). -/
def legacyFeature (i : Instr) (s : State) : Bool :=
  match i with
  | .cvtpi2ps _ _ _ => s.params.sse
  | .cvtps2pi _ _ _ => s.params.sse
  | _ => s.params.sse2

/-- Does the form perform `MMXTransition()`? (R28) -/
def performsTransition : Instr → Bool
  | .cvtpd2pi _ _ _ => true
  | .cvtpi2ps _ _ _ => true
  | .cvtps2pi _ _ _ => true
  | .cvtpi2pd _ _ src => RM.isReg src
  | _ => false

/-- The general register that the form writes, if any (R32). -/
def gprDestination : Instr → Option GenReg
  | .cvtsd2si32 _ d _ => some d
  | .cvtsd2si64 _ d _ => some d
  | .vcvtsd2si32 _ d _ => some d
  | .vcvtsd2si64 _ d _ => some d
  | _ => none

/-- No `#UD` and no `#NM` condition holds for the instruction (R264 to R267). -/
def Ready (i : Instr) (s : State) : Prop := if vexShape i then VexReady s else LegacyReady s (legacyFeature i s)

/-- No `#UD` condition holds for the instruction, in a mode of R300 (R264, R265, R267): `Ready` without `CR0.TS`. -/
def Enabled (i : Instr) (s : State) : Prop :=
  (s.mode = .bits64 ∨ s.mode = .bits32) ∧
  (if vexShape i then s.osxsave = true ∧ s.xcr0.extractLsb' 1 2 = 3 ∧ s.params.avx = true
   else s.em = false ∧ s.osfxsr = true ∧ legacyFeature i s = true)

/-- The forms whose conversion is always exact: CVTDQ2PD, VCVTDQ2PD, CVTPI2PD (R41). -/
def exactForm : Instr → Bool
  | .cvtdq2pd _ _ _ => true
  | .vcvtdq2pd128 _ _ _ => true
  | .vcvtdq2pd256 _ _ _ => true
  | .cvtpi2pd _ _ _ => true
  | _ => false

/-- Is there a SIB byte? (R107) -/
def hasSib : RM 16 → Bool
  | .mem (.sib _ _ _) => true
  | .mem (.sibNoBase _ _) => true
  | _ => false

/-! ### Results and outcomes -/

/-- Two results side by side, element 0 lowest (R14). -/
def results2 {a b w : Nat} (f : BitVec a → Conv b) (v : BitVec w) : BitVec (b + b) :=
  (f (lane a 1 v)).value ++ (f (lane a 0 v)).value

/-- Four results side by side, element 0 lowest. -/
def results4 {a b w : Nat} (f : BitVec a → Conv b) (v : BitVec w) : BitVec (b + (b + (b + b))) :=
  (f (lane a 3 v)).value ++ ((f (lane a 2 v)).value ++ results2 f v)

/-- Eight results side by side, element 0 lowest. -/
def results8 {a b w : Nat} (f : BitVec a → Conv b) (v : BitVec w) : BitVec (b + (b + (b + (b + (b + (b + (b + b))))))) :=
  (f (lane a 7 v)).value ++ ((f (lane a 6 v)).value ++ ((f (lane a 5 v)).value ++ ((f (lane a 4 v)).value ++ results4 f v)))

/-- The union of the flag sets of elements 0 and 1 (R170). -/
def flags2 {a b w : Nat} (f : BitVec a → Conv b) (v : BitVec w) : FpFlags :=
  (f (lane a 0 v)).flags.union (f (lane a 1 v)).flags

/-- The union of the flag sets of elements 0 to 3. -/
def flags4 {a b w : Nat} (f : BitVec a → Conv b) (v : BitVec w) : FpFlags :=
  (flags2 f v).union ((f (lane a 2 v)).flags.union (f (lane a 3 v)).flags)

/-- The union of the flag sets of elements 0 to 7. -/
def flags8 {a b w : Nat} (f : BitVec a → Conv b) (v : BitVec w) : FpFlags :=
  (flags4 f v).union
    (((f (lane a 4 v)).flags.union (f (lane a 5 v)).flags).union ((f (lane a 6 v)).flags.union (f (lane a 7 v)).flags))

/-- What R171 and R172 make of the flag set `f` raised in state `s`: with every flag masked the outcome `o` is a next state
with `post`; otherwise it is `#XM`, or the `#UD` of R269 while `CR4.OSXMMEXCPT = 0`. -/
def Completes (s : State) (o : Out) (f : FpFlags) (post : State → Prop) : Prop :=
  (Masked s f → ∃ t, o = .next t ∧ post t) ∧
  (¬ Masked s f → o = .fault (if s.osxmmexcpt then .simdFloatingPoint else .invalidOpcodeSimd))

/-! ### Memory operands -/

/-- The memory operand of an instruction, if its source is memory (R106). -/
def memoryOperand (i : Instr) : Option Mem :=
  match i.fields.rm with
  | .reg _ => none
  | .mem m => some m

/-- The segment of the memory operand `m` of `i` (R109, R121). -/
def operandSegment (i : Instr) (m : Mem) (s : State) : Seg := Mem.segment s.mode64 m i.fields.seg

/-- The linear address of the memory operand `m` of `i` (R70). -/
def operandAddress (i : Instr) (m : Mem) (s : State) : Word := Mem.linear m i.fields.seg i.fields.addr32 i.len s

/-- Address of byte `k` of the memory operand `m` of `i` (R62). -/
def operandByte (i : Instr) (m : Mem) (s : State) (k : Nat) : Word := byteAddress s.mode64 (operandAddress i m s) k

/-- Bytes that the memory form of an instruction reads: the table of R65. -/
def loadBytes : Instr → Nat
  | .cvtdq2pd _ _ _ => 8
  | .vcvtdq2pd128 _ _ _ => 8
  | .vcvtdq2pd256 _ _ _ => 16
  | .cvtdq2ps _ _ _ => 16
  | .vcvtdq2ps128 _ _ _ => 16
  | .vcvtdq2ps256 _ _ _ => 32
  | .cvtpd2dq _ _ _ => 16
  | .vcvtpd2dq128 _ _ _ => 16
  | .vcvtpd2dq256 _ _ _ => 32
  | .cvtpd2pi _ _ _ => 16
  | .cvtpd2ps _ _ _ => 16
  | .vcvtpd2ps128 _ _ _ => 16
  | .vcvtpd2ps256 _ _ _ => 32
  | .cvtpi2pd _ _ _ => 8
  | .cvtpi2ps _ _ _ => 8
  | .cvtps2dq _ _ _ => 16
  | .vcvtps2dq128 _ _ _ => 16
  | .vcvtps2dq256 _ _ _ => 32
  | .cvtps2pd _ _ _ => 8
  | .vcvtps2pd128 _ _ _ => 8
  | .vcvtps2pd256 _ _ _ => 16
  | .cvtps2pi _ _ _ => 8
  | .cvtsd2si32 _ _ _ => 8
  | .cvtsd2si64 _ _ _ => 8
  | .vcvtsd2si32 _ _ _ => 8
  | .vcvtsd2si64 _ _ _ => 8

/-- The five legacy forms whose `m128` operand must be aligned (R66). -/
def needsAlignment : Instr → Bool
  | .cvtdq2ps _ _ _ => true
  | .cvtpd2dq _ _ _ => true
  | .cvtpd2pi _ _ _ => true
  | .cvtpd2ps _ _ _ => true
  | .cvtps2dq _ _ _ => true
  | _ => false

/-- Steps 1 to 5 of R263 raise nothing: the instruction is enabled, and no x87 exception that it takes is pending. -/
structure Admitted (i : Instr) (s : State) : Prop where
  ready : Ready i s
  pending : performsTransition i = true → s.x87Pending = false

/-- The memory operand lies inside its segment: canonical in 64-bit mode, and no byte is answered by a segment fault. -/
structure InSegment (i : Instr) (m : Mem) (s : State) : Prop where
  canonical : s.mode64 = true → canonical s.params.linearAddressBits (operandAddress i m s) = true
  bytes : ∀ k, k < loadBytes i → Admission.answer s.loadMap (operandByte i m s k).toNat ≠ .segmentFault

/-- The load of `w` bits of the memory operand `m` of `i`: MemRead at its address through its segment, with the alignment
requirement of its form (R65, R66, R70). -/
def readOperand (w : Nat) (i : Instr) (m : Mem) (s : State) : Except Stop (BitVec w) :=
  memRead w s (operandSegment i m s) (operandAddress i m s) (needsAlignment i)

/-- The vector register that the form writes, if any (R23). -/
def vecDestination : Instr → Option VecReg
  | .cvtpd2pi _ _ _ => none
  | .cvtps2pi _ _ _ => none
  | .cvtsd2si32 _ _ _ => none
  | .cvtsd2si64 _ _ _ => none
  | .vcvtsd2si32 _ _ _ => none
  | .vcvtsd2si64 _ _ _ => none
  | i => some i.fields.reg

/-- The MMX register that the form writes, if any (R23). -/
def mmxDestination : Instr → Option MmxReg
  | .cvtpd2pi _ d _ => some d
  | .cvtps2pi _ d _ => some d
  | _ => none

/-! ### Program text -/

/-- The bytes stand at `pc`, below the top of the address space, and may be fetched (R302). -/
structure TextAt (s : State) (bytes : List Byte) : Prop where
  below : s.pc.toNat + bytes.length ≤ s.addressLimit
  byte : ∀ k (h : k < bytes.length),
    Admission.answer s.fetchMap (s.pc.toNat + k) = .granted ∧ s.mem.read (s.pc.toNat + k) = bytes[k]

/-- The instructions executed one after the other, up to the first fault or refusal (R304). -/
def execAll : List Instr → State → Out
  | [], s => .next s
  | i :: rest, s =>
    match exec i s with
    | .next t => execAll rest t
    | o => o

/-- Is the byte a legacy prefix (R93)? -/
def isPrefixByte (b : Byte) : Bool := (prefixRole b).isSome

/-- Is the byte one of `66`, `F2`, `F3` (R94)? -/
def isMandatoryByte (b : Byte) : Bool := decide (b = 0x66#8) || decide (b = 0xF2#8) || decide (b = 0xF3#8)

/-- Is the byte a segment override (R93)? -/
def isSegmentByte (b : Byte) : Bool :=
  decide (b = 0x2E#8) || decide (b = 0x36#8) || decide (b = 0x3E#8) || decide (b = 0x26#8) || decide (b = 0x64#8) ||
  decide (b = 0x65#8)

/-- Is the byte a REX byte, `40` to `4F` (R97)? -/
def isRexByte (b : Byte) : Bool := decide (b.extractLsb' 4 4 = 4)

/-- The bytes of a VEX form with any stored `vvvv` field (R99, R100). -/
def vexBytesStored (i : Instr) (vvvv : BitVec 4) : List Byte :=
  let f := i.fields
  prefixBytes f.seg f.addr32 ++
  (if f.ext then
    [0xC4#8, BitVec.ofBool (!extBit f.reg) ++ BitVec.ofBool (!f.rm.xBit) ++ BitVec.ofBool (!f.rm.bBit) ++ 1#5,
      BitVec.ofBool f.form.w ++ vvvv ++ BitVec.ofBool f.form.l ++ f.form.pp]
   else [0xC5#8, BitVec.ofBool (!extBit f.reg) ++ vvvv ++ BitVec.ofBool f.form.l ++ f.form.pp]) ++
  [f.form.opcode] ++ f.rm.bytes (lowField f.reg)

end Sys2Proof.Machine
end

