-- ==== Sys2Proof/Reference.lean ====
section
/-! DEFINITION. The reference for the conversions: the values of R141 and the rounding of R143 over the
rationals, and for address sums over the integers. The
statements compare the machine's integer arithmetic with it; no meaning uses it. -/

namespace Sys2Proof.Machine

/-- `val(b)` of a zero, denormal or normal bit string, as an exact rational (R141). -/
def Fmt.val (f : Fmt) (u : Unpacked) : ℚ :=
  (if u.sign then -1 else 1) *
  (if u.exp = 0 then (u.frac : ℚ) * 2 ^ (f.emin - (f.fbits : Int))
   else ((2 : ℚ) ^ f.fbits + u.frac) * 2 ^ ((u.exp : Int) - f.bias - f.fbits))

/-- `r` is the multiple of `g` that R143 picks for `q`: the largest one not above `q` (RD), the smallest one not below it
(RU), the one of the two with the smaller magnitude (RZ), the nearer one and on a tie the even multiple (RN). -/
def Rounds (rc : Rounding) (g q r : ℚ) : Prop :=
  ∃ n : Int, r = n * g ∧
    match rc with
    | .down => r ≤ q ∧ q < r + g
    | .up => r - g < q ∧ q ≤ r
    | .zero => |r| ≤ |q| ∧ |q| < |r| + g ∧ 0 ≤ r * q
    | .nearest => |q - r| ≤ g / 2 ∧ (|q - r| = g / 2 → n % 2 = 0)

/-- The grid of `RoundSig(q, p, _)`: `2^(floor(log2 |q|) - p + 1)` (R145). -/
def sigGrid (p : Nat) (q : ℚ) : ℚ := 2 ^ (Int.log 2 |q| - p + 1)

/-- `flags = {P}` if the conversion is inexact, `{}` otherwise. -/
def PrecisionIff (f : FpFlags) (r q : ℚ) : Prop := (f = .inexact true ∧ r ≠ q) ∨ (f = .none ∧ r = q)

/-- Neither infinite nor a NaN (R141). -/
def finiteClass : FpClass → Bool
  | .zero => true
  | .denormal => true
  | .normal => true
  | _ => false

/-- The four cases of R152 for the `w`-bit integer `c` made from the bit string `u` of format `f`. -/
def IntConversion (f : Fmt) (w : Nat) (rc : Rounding) (daz : Bool) (u : Unpacked) (c : Conv w) : Prop :=
  (finiteClass (f.classify u) = false → c = { value := BitVec.intMin w, flags := .onlyInvalid }) ∧
  (f.classify u = .denormal → daz = true → c = { value := 0#w, flags := .none }) ∧
  (finiteClass (f.classify u) = true → (f.classify u = .denormal → daz = false) →
    ∃ r : Int, Rounds rc 1 (f.val u) r ∧
      (((2 : Int) ^ (w - 1) ≤ r ∨ r < -(2 : Int) ^ (w - 1)) →
        c = { value := BitVec.intMin w, flags := .onlyInvalid }) ∧
      (-(2 : Int) ^ (w - 1) ≤ r → r < (2 : Int) ^ (w - 1) →
        c.value.toInt = r ∧ PrecisionIff c.flags r (f.val u)))

/-- The largest finite `F32` of sign `s`. -/
def largestF32 (s : Bool) : BitVec 32 := if s then 0xFF7FFFFF#32 else 0x7F7FFFFF#32

/-- The infinite `F32` of sign `s`. -/
def infiniteF32 (s : Bool) : BitVec 32 := if s then 0xFF800000#32 else 0x7F800000#32

/-- The `F32` zero of sign `s`. -/
def zeroF32 (s : Bool) : BitVec 32 := if s then 0x80000000#32 else 0#32

/-- The bit string `b` is the `F32` of sign `s` and value `r` (R146). -/
def IsF32 (b : BitVec 32) (s : Bool) (r : ℚ) : Prop :=
  (unpack32 b).sign = s ∧ finiteClass (f32.classify (unpack32 b)) = true ∧ f32.val (unpack32 b) = r

/-- The bit string `b` is the `F64` of sign `s` and value `r` (R146). -/
def IsF64 (b : BitVec 64) (s : Bool) (r : ℚ) : Prop :=
  (unpack64 b).sign = s ∧ finiteClass (f64.classify (unpack64 b)) = true ∧ f64.val (unpack64 b) = r

/-- Step 6 of R155: the result `c` for the nonzero rational `q` of sign `s`; `u` is `RoundSig(q, 24, rc)`. That `P` compares `q`
with the denormal-grid value where `um = 0` is the model's choice (log entry 32). -/
def NarrowedValue (rc : Rounding) (fz um s : Bool) (q : ℚ) (c : Conv 32) : Prop :=
  ∃ u : ℚ, Rounds rc (sigGrid 24 q) q u ∧
    ((2 : ℚ) ^ 128 ≤ |u| →
      c.flags = { FpFlags.none with overflow := true, precision := true } ∧
      c.value = (if rc = .nearest ∨ (rc = .up ∧ s = false) ∨ (rc = .down ∧ s = true) then infiniteF32 s else largestF32 s)) ∧
    ((2 : ℚ) ^ (-126 : Int) ≤ |u| → |u| < (2 : ℚ) ^ 128 → IsF32 c.value s u ∧ PrecisionIff c.flags u q) ∧
    (|u| < (2 : ℚ) ^ (-126 : Int) →
      ∃ r : ℚ, Rounds rc ((2 : ℚ) ^ (-149 : Int)) q r ∧
        (um = false →
          (r ≠ q ∧ c.flags = { FpFlags.none with underflow := true, precision := true }) ∨
          (r = q ∧ c.flags = { FpFlags.none with underflow := true })) ∧
        (um = true → fz = true →
          c.value = zeroF32 s ∧ c.flags = { FpFlags.none with underflow := true, precision := true }) ∧
        (um = true → fz = false →
          IsF32 c.value s r ∧
          ((r ≠ q ∧ c.flags = { FpFlags.none with underflow := true, precision := true }) ∨
           (r = q ∧ c.flags = .none))))

/-! ### Address sums -/

/-- A general register read at a width of `bits` (R70). -/
def regAt (bits : Nat) (s : State) (r : GenReg) : Int := (s.gpr[r].toNat % 2 ^ bits : Nat)

/-- `x[index] * scale`, or 0 without an index (R70). -/
def indexSum (bits : Nat) (s : State) : Option (GenReg × Scale) → Int
  | none => 0
  | some (r, .x1) => regAt bits s r
  | some (r, .x2) => regAt bits s r * 2
  | some (r, .x4) => regAt bits s r * 4
  | some (r, .x8) => regAt bits s r * 8

/-- The displacement as an integer (R109). -/
def dispSum : Disp → Int
  | .none => 0
  | .disp8 v => v.toInt
  | .disp32 v => v.toInt

/-- The exact sum that R70 and R71 reduce modulo the address size. -/
def addressSum (bits : Nat) (m : Mem) (len : Nat) (s : State) : Int :=
  match m with
  | .based b d => regAt bits s b + dispSum d
  | .sib b i d => regAt bits s b + indexSum bits s i + dispSum d
  | .sibNoBase i d => indexSum bits s i + d.toInt
  | .ripRel d => (s.pc.toNat : Int) + len + d.toInt
  | .abs d => d.toInt

end Sys2Proof.Machine
end

