-- ==== Sys2Proof/Certificates/Slice0/Obligations.lean ====
section
/-! DEFINITION. The statements about the machine, one `def Obligations.<Name> : Prop` each; OBLIGATIONS.json lists them. -/

open Sys2Proof Sys2Proof.Machine

/-! ### Encoding -/

/-- Decoding the encoding of a well-formed instruction gives it back, with the following bytes left over
(30_encoding.md sections 1 to 7). -/
def Obligations.DecodeOfEncodeIsTheInstruction : Prop :=
  ∀ (m64 : Bool) (i : Instr) (rest : List Byte), i.wf m64 = true → decode m64 (encode i ++ rest) = .ok i rest

/-- What the decoder answers is well formed, and it consumes exactly ilen bytes, between 3 and 12 (30_encoding.md
section 1). -/
def Obligations.DecodedInstructionIsWellFormedAndIlenLong : Prop :=
  ∀ (m64 : Bool) (bytes : List Byte) (i : Instr) (rest : List Byte), decode m64 bytes = .ok i rest →
    i.wf m64 = true ∧ i.len ≤ bytes.length ∧ rest = bytes.drop i.len ∧ 3 ≤ i.len ∧ i.len ≤ 12

/-- No decode key matches two rows of the opcode table (30_encoding.md section 6). -/
def Obligations.OpcodeRowsAreDisjoint : Prop :=
  ∀ (key : BitVec 18) (f g : Form), key &&& f.mask = f.bits → key &&& g.mask = g.bits → f = g

/-- The nine encoding examples decode to the instructions they are examples of (states R127). -/
def Obligations.EncodingExamplesDecode : Prop :=
  decode true [0xF3, 0x0F, 0xE6, 0xC1] = .ok (.cvtdq2pd ⟨none, false, false⟩ 0 (.reg 1)) [] ∧
  decode true [0x0F, 0x5B, 0x00] = .ok (.cvtdq2ps ⟨none, false, false⟩ 0 (.mem (.based 0 .none))) [] ∧
  decode true [0x66, 0x0F, 0x5B, 0xC8] = .ok (.cvtps2dq ⟨none, false, false⟩ 1 (.reg 0)) [] ∧
  decode true [0xF2, 0x48, 0x0F, 0x2D, 0xC0] = .ok (.cvtsd2si64 ⟨none, false, true⟩ 0 (.reg 0)) [] ∧
  decode true [0x66, 0x45, 0x0F, 0x5A, 0x4C, 0xC8, 0x10] =
    .ok (.cvtpd2ps ⟨none, false, true⟩ 9 (.mem (.sib 8 (some (1, .x8)) (.disp8 0x10)))) [] ∧
  decode true [0xC5, 0xFE, 0xE6, 0x43, 0x10] =
    .ok (.vcvtdq2pd256 ⟨none, false, false⟩ 0 (.mem (.based 3 (.disp8 0x10)))) [] ∧
  decode true [0xC5, 0xFD, 0x5A, 0xC8] = .ok (.vcvtpd2ps256 ⟨none, false, false⟩ 1 (.reg 0)) [] ∧
  decode true [0xC4, 0x41, 0x7A, 0xE6, 0xC1] = .ok (.vcvtdq2pd128 ⟨none, false, true⟩ 8 (.reg 9)) [] ∧
  decode true [0xC4, 0xE1, 0xFB, 0x2D, 0xC1] = .ok (.vcvtsd2si64 ⟨none, false, true⟩ 0 (.reg 1)) []

/-- A VEX form whose stored vvvv field is not 1111b raises #UD, whatever the machine's state (states R119). -/
def Obligations.VexVvvvOtherThanOnesRaisesInvalidOpcode : Prop :=
  ∀ (s : State) (i : Instr) (vvvv : BitVec 4), s.mode.modelled = true → vexShape i = true → i.wf s.mode64 = true →
    vvvv ≠ 15 → (s.mode64 = true ∨ i.fields.ext = true ∨ vvvv.getLsbD 3 = true) → TextAt s (vexBytesStored i vvvv) →
    step s = .fault .invalidOpcode

/-- A LOCK prefix anywhere before a form raises #UD (states R96). -/
def Obligations.LockPrefixRaisesInvalidOpcode : Prop :=
  ∀ (s : State) (i : Instr) (pre post : List Byte), s.mode.modelled = true → i.wf s.mode64 = true →
    encode i = pre ++ post → (∀ b ∈ pre, isPrefixByte b = true) → TextAt s (pre ++ 0xF0#8 :: post) →
    step s = .fault .invalidOpcode

/-- A VEX prefix after 66, F2, F3, F0 or REX raises #UD; after a segment override and 67 alone it is executed (states
R101). -/
def Obligations.VexPrefixMustComeLast : Prop :=
  ∀ (s : State) (i : Instr), s.mode.modelled = true → vexShape i = true → i.wf s.mode64 = true →
    (∀ (pre post : List Byte) (b : Byte), encode i = pre ++ post → (∀ x ∈ pre, isPrefixByte x = true) →
      (isMandatoryByte b = true ∨ b = 0xF0#8) → TextAt s (pre ++ b :: post) → step s = .fault .invalidOpcode) ∧
    (∀ (pre post : List Byte) (b : Byte), encode i = pre ++ post → (∀ x ∈ pre, isPrefixByte x = true) →
      s.mode64 = true → isRexByte b = true → (post.head? = some 0xC4#8 ∨ post.head? = some 0xC5#8) →
      TextAt s (pre ++ b :: post) → step s = .fault .invalidOpcode) ∧
    (TextAt s (encode i) → step s = exec i s)

/-- Repeated or conflicting prefixes, 67 outside 64-bit mode, and REX before another prefix are refused
(30_encoding.md sections 2 and 3). -/
def Obligations.ConflictingPrefixesAreRefused : Prop :=
  (∀ (m64 : Bool) (pre rest : List Byte), (∀ b ∈ pre, isPrefixByte b = true) →
    (2 ≤ (pre.filter isMandatoryByte).length ∨ 2 ≤ (pre.filter isSegmentByte).length ∨ 2 ≤ pre.count 0x67#8 ∨
      (m64 = false ∧ 0x67#8 ∈ pre)) →
    ∃ r, decode m64 (pre ++ rest) = .refused r) ∧
  (∀ (pre rest : List Byte) (rex b : Byte), (∀ x ∈ pre, isPrefixByte x = true) → isRexByte rex = true →
    isPrefixByte b = true → ∃ r, decode true (pre ++ rex :: b :: rest) = .refused r) ∧
  (∀ (s : State) (r : DecodeRefusal), s.mode.modelled = true → decodeAt s = .refused r → step s = .refused (.bytes r))

/-- Outside 64-bit mode row 24's bytes are refused, and row 26's bytes are row 25; neither case faults (states R120).
-/
def Obligations.SixtyFourBitRowsOutside64BitMode : Prop :=
  (∀ (bytes rest : List Byte) (e : LegacyEnc) (d : GenReg) (src : RM 16),
    decode false bytes ≠ .ok (.cvtsd2si64 e d src) rest) ∧
  (∀ (bytes rest : List Byte) (e : VexEnc) (d : GenReg) (src : RM 16),
    decode false bytes ≠ .ok (.vcvtsd2si64 e d src) rest) ∧
  (∀ (e : LegacyEnc) (d : GenReg) (src : RM 16) (rest : List Byte), (Instr.cvtsd2si64 e d src).wf true = true →
    ∃ r, decode false (encode (.cvtsd2si64 e d src) ++ rest) = .refused r) ∧
  (∀ (s : State) (e : LegacyEnc) (d : GenReg) (src : RM 16), s.mode = .bits32 →
    (Instr.cvtsd2si64 e d src).wf true = true → TextAt s (encode (.cvtsd2si64 e d src)) →
    ∃ r, step s = .refused (.bytes r)) ∧
  (∀ (e : VexEnc) (d : GenReg) (src : RM 16) (rest : List Byte), e.three = true →
    (Instr.vcvtsd2si32 e d src).wf false = true →
    decode false (encode (.vcvtsd2si64 e d src) ++ rest) = .ok (.vcvtsd2si32 e d src) rest)

/-- Flipping an ignored bit (W, L, REX.W, X, R, B) decodes alike; CS, SS, DS, ES overrides act as none (30_encoding.md
section 8). -/
def Obligations.IgnoredEncodingBitsChangeNothing : Prop :=
  (∀ (m64 : Bool) (pre : List Byte) (b1 b2 : Byte) (rest : List Byte) (i : Instr) (r : List Byte),
    (∀ x ∈ pre, isPrefixByte x = true) → decode m64 (pre ++ 0xC4#8 :: b1 :: b2 :: rest) = .ok i r →
    ((gprDestination i = none → decode m64 (pre ++ 0xC4#8 :: b1 :: (b2 ^^^ 0x80#8) :: rest) = .ok i r) ∧
     ((gprDestination i).isSome = true → decode m64 (pre ++ 0xC4#8 :: b1 :: (b2 ^^^ 0x04#8) :: rest) = .ok i r) ∧
     (m64 = true → hasSib i.fields.rm = false →
       decode m64 (pre ++ 0xC4#8 :: (b1 ^^^ 0x40#8) :: b2 :: rest) = .ok i r))) ∧
  (∀ (m64 : Bool) (pre : List Byte) (b1 : Byte) (rest : List Byte) (i : Instr) (r : List Byte),
    (∀ x ∈ pre, isPrefixByte x = true) → decode m64 (pre ++ 0xC5#8 :: b1 :: rest) = .ok i r →
    (gprDestination i).isSome = true → decode m64 (pre ++ 0xC5#8 :: (b1 ^^^ 0x04#8) :: rest) = .ok i r) ∧
  (∀ (pre : List Byte) (rex : Byte) (rest : List Byte) (i : Instr) (r : List Byte),
    (∀ x ∈ pre, isPrefixByte x = true) → isRexByte rex = true → decode true (pre ++ rex :: 0x0F#8 :: rest) = .ok i r →
    ((gprDestination i = none → decode true (pre ++ (rex ^^^ 0x08#8) :: 0x0F#8 :: rest) = .ok i r) ∧
     (hasSib i.fields.rm = false → decode true (pre ++ (rex ^^^ 0x02#8) :: 0x0F#8 :: rest) = .ok i r) ∧
     ((mmxDestination i).isSome = true → decode true (pre ++ (rex ^^^ 0x04#8) :: 0x0F#8 :: rest) = .ok i r) ∧
     (∀ (e : LegacyEnc) (d : VecReg) (n : MmxReg), (i = .cvtpi2pd e d (.reg n) ∨ i = .cvtpi2ps e d (.reg n)) →
       decode true (pre ++ (rex ^^^ 0x01#8) :: 0x0F#8 :: rest) = .ok i r))) ∧
  (∀ (s : State) (m : Mem) (g : Seg) (addr32 : Bool) (len : Nat), s.mode64 = true → g ≠ .fs → g ≠ .gs →
    Mem.linear m (some g) addr32 len s = Mem.linear m none addr32 len s ∧
    Mem.segment s.mode64 m (some g) = Mem.segment s.mode64 m none)

/-! ### The step -/

/-- Where the bytes at pc decode to an instruction, step is its execution (41_cvtdq2pd_cvtdq2ps.md section 1). -/
def Obligations.StepRunsTheDecodedInstruction : Prop :=
  ∀ (s : State) (i : Instr) (rest : List Byte), s.mode.modelled = true → decodeAt s = .ok i rest → step s = exec i s

/-- Where the text at pc is the encoding of a well-formed instruction, step executes it (30_encoding.md section 1,
20_memory.md section 1). -/
def Obligations.StepRunsTheEncodedInstructionAtPc : Prop :=
  ∀ (s : State) (i : Instr), s.mode.modelled = true → i.wf s.mode64 = true → TextAt s (encode i) → step s = exec i s

/-- Every step keeps memory canonical, MXCSR's reserved bits zero and EIP below 2^32 (10_state.md sections 5 and 7,
20_memory.md section 1). -/
def Obligations.StepKeepsTheInvariant : Prop :=
  ∀ (s t : State), s.Inv → step s = .next t → t.Inv

/-- The state after reset meets the invariant, and INIT keeps it (10_state.md sections 5, 7 and 10,
70_reset_and_hazards.md section 2). -/
def Obligations.ResetMeetsTheInvariant : Prop :=
  State.reset.Inv ∧ ∀ s : State, s.Inv → (initReset s).Inv

/-- No step changes EFLAGS, a control register, CPL, a base, the mode, a parameter, an admission map or memory
(10_state.md sections 6 and 8, 20_memory.md section 1, 70_reset_and_hazards.md section 1). -/
def Obligations.StepChangesNoSystemStateAndNoMemory : Prop :=
  ∀ (s t : State), step s = .next t → SameSystem s t

/-- A step only ever sets MXCSR flags: none is cleared, ZE and every other bit of MXCSR stay (states R38). -/
def Obligations.MxcsrFlagsAreStickyAndControlsKept : Prop :=
  ∀ (s t : State), step s = .next t →
    (∀ k, k < 6 → s.mxcsr.getLsbD k = true → t.mxcsr.getLsbD k = true) ∧
    t.mxcsr.getLsbD 2 = s.mxcsr.getLsbD 2 ∧ t.mxcsr.extractLsb' 6 26 = s.mxcsr.extractLsb' 6 26

/-- CVTDQ2PD, VCVTDQ2PD and CVTPI2PD neither depend on MXCSR nor change it (10_state.md section 7). -/
def Obligations.ExactConversionsIgnoreMxcsr : Prop :=
  ∀ (i : Instr) (s : State) (m : BitVec 32), exactForm i = true →
    (∀ t, exec i s = .next t → t.mxcsr = s.mxcsr ∧ exec i { s with mxcsr := m } = .next { t with mxcsr := m }) ∧
    (∀ f, exec i s = .fault f → exec i { s with mxcsr := m } = .fault f) ∧
    (∀ r, exec i s = .refused r → exec i { s with mxcsr := m } = .refused r)

/-- A completed instruction writes no vector, general or x87 data register but its destination (10_state.md sections
2, 3 and 4). -/
def Obligations.OnlyTheDestinationRegisterIsWritten : Prop :=
  ∀ (i : Instr) (s t : State), exec i s = .next t →
    SameGpr s t (gprDestination i) ∧ SameYmm s t (vecDestination i) ∧ SameX87Data s t (mmxDestination i)

/-- TOP and TAG become 0 for exactly CVTPD2PI, CVTPI2PS, CVTPS2PI and CVTPI2PD mm; a fault changes neither (states
R28). -/
def Obligations.MmxTransitionExactlyWhereStated : Prop :=
  (∀ (i : Instr) (s t : State), exec i s = .next t →
    (performsTransition i = true → t.x87Top = 0 ∧ t.x87Tag = 0) ∧
    (performsTransition i = false → t.x87Top = s.x87Top ∧ t.x87Tag = s.x87Tag)) ∧
  (∀ (e : LegacyEnc) (d : MmxReg) (src : RM 16),
    performsTransition (.cvtpd2pi e d src) = true ∧ performsTransition (.cvtps2pi e d src) = true) ∧
  (∀ (e : LegacyEnc) (d : VecReg) (src : RM 8), performsTransition (.cvtpi2ps e d src) = true) ∧
  (∀ (e : LegacyEnc) (d : VecReg) (r : MmxReg) (m : Mem),
    performsTransition (.cvtpi2pd e d (.reg r)) = true ∧ performsTransition (.cvtpi2pd e d (.mem m)) = false) ∧
  (∀ (s : State) (f : Fault), (s.atFault f).x87Top = s.x87Top ∧ (s.atFault f).x87Tag = s.x87Tag)

/-- A completed step sets pc to pc + ilen modulo the address width; a fault keeps pc; a wrap-around is refused (states
R34). -/
def Obligations.StepMovesPcPastTheInstruction : Prop :=
  (∀ (s t : State), step s = .next t → ∃ i rest, decodeAt s = .ok i rest ∧
    t.pc.toNat = (s.pc.toNat + i.len) % (if s.mode64 then 2 ^ 64 else 2 ^ 32)) ∧
  (∀ (s : State) (f : Fault), (s.atFault f).pc = s.pc) ∧
  (∀ (s : State) (k : Nat), s.mode.modelled = true → k < 15 → s.pc.toNat + k = s.addressLimit →
    (∀ j, j < k → Admission.answer s.fetchMap (s.pc.toNat + j) = .granted) →
    decode s.mode64 ((List.range k).map fun j => s.mem.read (s.pc.toNat + j)) = .short →
    step s = .refused .wrapsAddressSpace)

/-- A legacy form keeps bits 255:128 of its vector destination, VEX.128 zeroes them, VEX.256 writes the whole register
(states R22). -/
def Obligations.UpperBitsFollowTheEncoding : Prop :=
  ∀ (i : Instr) (s t : State) (d : VecReg), exec i s = .next t → vecDestination i = some d →
    (vexShape i = false → t.ymm[d].extractLsb' 128 128 = s.ymm[d].extractLsb' 128 128) ∧
    (vexShape i = true → i.fields.form.l = false → t.ymm[d].extractLsb' 128 128 = 0) ∧
    (i.fields.form = .vcvtpd2dq256 ∨ i.fields.form = .vcvtpd2ps256 → t.ymm[d].extractLsb' 128 128 = 0) ∧
    (vexShape i = true → i.fields.rm ≠ .reg d →
      ∀ (x : BitVec 256) (t' : State), exec i (s.writeYmm d x) = .next t' → t'.ymm[d] = t.ymm[d])

/-! ### Completion and faults -/

/-- With its enables on, its operand readable and the six SIMD exceptions masked, every form completes
(41_cvtdq2pd_cvtdq2ps.md section 1, 20_memory.md section 4, 10_state.md section 7). -/
def Obligations.AdmittedInstructionCompletesUnderMasks : Prop :=
  ∀ (i : Instr) (s : State), Admitted i s → s.mxcsr.extractLsb' 7 6 = 63 →
    (∀ m, memoryOperand i = some m →
      InSegment i m s ∧ (needsAlignment i = true → (operandAddress i m s).extractLsb' 0 4 = 0) ∧
      (∀ k, k < loadBytes i → Admission.answer s.loadMap (operandByte i m s k).toNat = .granted) ∧
      ¬ (s.am = true ∧ s.ac = true ∧ s.cpl = 3)) →
    ∃ t, exec i s = .next t

/-- In a mode of R300 a legacy form raises this #UD exactly when EM = 1, OSFXSR = 0 or its CPUID feature is absent
(60_exceptions.md section 4). -/
def Obligations.LegacyFormsNeedTheirEnables : Prop :=
  ∀ (i : Instr) (s : State), vexShape i = false →
    (s.em = true ∨ s.osfxsr = false ∨ legacyFeature i s = false → exec i s = .fault .invalidOpcode) ∧
    (Enabled i s → exec i s ≠ .fault .invalidOpcode) ∧
    (s.mode = .bits64 ∨ s.mode = .bits32 →
      (exec i s = .fault .invalidOpcode ↔ s.em = true ∨ s.osfxsr = false ∨ legacyFeature i s = false))

/-- A VEX form raises #UD without OSXSAVE, XCR0[2:1] = 11b, AVX or protection; EM and OSFXSR do not gate it
(60_exceptions.md section 4). -/
def Obligations.VexFormsNeedTheirEnables : Prop :=
  ∀ (i : Instr) (s : State), vexShape i = true →
    (s.osxsave = false ∨ s.xcr0.extractLsb' 1 2 ≠ 3 ∨ s.params.avx = false ∨ s.mode = .realAddress ∨ s.mode = .virtual8086 →
      exec i s = .fault .invalidOpcode) ∧
    (Enabled i s → exec i s ≠ .fault .invalidOpcode)

/-- An enabled form raises #NM exactly when CR0.TS = 1, before #MF, memory faults and SIMD exceptions (states R266).
-/
def Obligations.TaskSwitchedRaisesDeviceNotAvailable : Prop :=
  ∀ (i : Instr) (s : State), Enabled i s → (exec i s = .fault .deviceNotAvailable ↔ s.ts = true)

/-- #MF for exactly the forms with the MMX transition while an x87 exception is pending; nothing changes
(60_exceptions.md section 5, 10_state.md section 3). -/
def Obligations.PendingX87ExceptionRaisesFloatingPointError : Prop :=
  (∀ (i : Instr) (s : State), Ready i s → performsTransition i = true → s.x87Pending = true →
    (s.ne = true → exec i s = .fault .x87FloatingPoint) ∧
    (s.ne = false → exec i s = .refused .x87ReportedExternally)) ∧
  (∀ (i : Instr) (s : State), performsTransition i = false ∨ s.x87Pending = false →
    exec i s ≠ .fault .x87FloatingPoint ∧ exec i s ≠ .refused .x87ReportedExternally) ∧
  (∀ s : State, s.atFault .x87FloatingPoint = s)

/-- A legacy m128 operand that is not 16-byte aligned raises #GP(0), whatever its pages are (states R66). -/
def Obligations.MisalignedLegacyM128RaisesGeneralProtection : Prop :=
  ∀ (i : Instr) (m : Mem) (s : State), needsAlignment i = true → memoryOperand i = some m → Admitted i s →
    InSegment i m s → (operandAddress i m s).extractLsb' 0 4 ≠ 0 → exec i s = .fault .generalProtection

/-- In 64-bit mode a non-canonical operand raises #SS(0) through SS and #GP(0) otherwise (20_memory.md section 5,
30_encoding.md sections 5 and 8). -/
def Obligations.NonCanonicalOperandRaisesSegmentFault : Prop :=
  (∀ (i : Instr) (m : Mem) (s : State), memoryOperand i = some m → Admitted i s → s.mode64 = true →
    canonical s.params.linearAddressBits (operandAddress i m s) = false →
    exec i s = .fault (if operandSegment i m s = .ss then .stackSegment else .generalProtection)) ∧
  (∀ (i : Instr) (m : Mem) (s : State), operandSegment i m s = .ss ↔
    (if s.mode64 then
      i.fields.seg ≠ some .fs ∧ i.fields.seg ≠ some .gs ∧ (Mem.base m = some 4 ∨ Mem.base m = some 5)
    else i.fields.seg = some .ss ∨ (i.fields.seg = none ∧ (Mem.base m = some 4 ∨ Mem.base m = some 5)))) ∧
  (∀ (n : Nat) (a : Word), canonical n a = true ↔ ∀ k, n - 1 ≤ k → k < 64 → a.getLsbD k = a.getLsbD 63)

/-- A load that Admit refuses ends in #PF with CR2 at the lowest refused byte, or in #SS/#GP(0) outside a segment
(20_memory.md sections 2 and 5, 60_exceptions.md section 6). -/
def Obligations.RefusedOperandByteFaults : Prop :=
  (∀ (i : Instr) (m : Mem) (s : State) (k : Nat), memoryOperand i = some m → Admitted i s →
    (s.mode64 = true → canonical s.params.linearAddressBits (operandAddress i m s) = true) → k < loadBytes i →
    Admission.answer s.loadMap (operandByte i m s k).toNat = .segmentFault →
    exec i s = .fault (if operandSegment i m s = .ss then .stackSegment else .generalProtection)) ∧
  (∀ (i : Instr) (m : Mem) (s : State) (k : Nat) (p r : Bool), memoryOperand i = some m → Admitted i s →
    InSegment i m s → (needsAlignment i = true → (operandAddress i m s).extractLsb' 0 4 = 0) → k < loadBytes i →
    (∀ j, j < k → Admission.answer s.loadMap (operandByte i m s j).toNat = .granted) →
    Admission.answer s.loadMap (operandByte i m s k).toNat = .pageFault p r →
    exec i s = .fault (.pageFault (pageFaultCode p (decide (s.cpl = 3)) r false) (operandByte i m s k)))

/-- #AC(0) needs AM, EFLAGS.AC, CPL 3 and a misaligned operand; m64 then raises it, wide VEX operands may (states
R68). -/
def Obligations.AlignmentCheckFiresOnlyWhereItMay : Prop :=
  (∀ (i : Instr) (m : Mem) (s : State), memoryOperand i = some m → Admitted i s → InSegment i m s →
    (∀ k, k < loadBytes i → Admission.answer s.loadMap (operandByte i m s k).toNat = .granted) →
    s.am = true → s.ac = true → s.cpl = 3 → needsAlignment i = false → (operandAddress i m s).toNat % loadBytes i ≠ 0 →
    (loadBytes i = 8 → exec i s = .fault .alignmentCheck) ∧
    (loadBytes i ≠ 8 → exec i s = .fault .alignmentCheck ∨ (∃ t, exec i s = .next t) ∨
      exec i s = .fault .simdFloatingPoint ∨ exec i s = .fault .invalidOpcodeSimd)) ∧
  (∀ (i : Instr) (s : State),
    s.am = false ∨ s.ac = false ∨ s.cpl ≠ 3 ∨ needsAlignment i = true ∨
      (∀ m, memoryOperand i = some m → (operandAddress i m s).toNat % loadBytes i = 0) →
    exec i s ≠ .fault .alignmentCheck)

/-- A faulted state differs only in CR2 after #PF and in MXCSR[5:0] after an unmasked SIMD exception (states R262). -/
def Obligations.FaultsChangeNothingElse : Prop :=
  ∀ (s : State) (f : Fault), let t := s.atFault f
    t.ymm = s.ymm ∧ t.gpr = s.gpr ∧ SameX87 s t ∧ t.pc = s.pc ∧ t.mem = s.mem ∧
    SameSystem { s with cr2 := t.cr2 } t ∧
    (∀ code a, f = .pageFault code a → t.cr2 = a) ∧ ((∀ code a, f ≠ .pageFault code a) → t.cr2 = s.cr2) ∧
    (f ≠ .simdFloatingPoint → f ≠ .invalidOpcodeSimd → t.mxcsr = s.mxcsr) ∧
    t.mxcsr.extractLsb' 6 26 = s.mxcsr.extractLsb' 6 26

/-- Each fault has its vector and error code, and the page-fault code has its five bits (states R261). -/
def Obligations.FaultVectorsAndErrorCodes : Prop :=
  (Fault.vector .invalidOpcode = 6 ∧ Fault.vector .invalidOpcodeSimd = 6 ∧ Fault.vector .deviceNotAvailable = 7 ∧
    Fault.vector .stackSegment = 12 ∧ Fault.vector .generalProtection = 13 ∧
    (∀ c a, Fault.vector (.pageFault c a) = 14) ∧ Fault.vector .x87FloatingPoint = 16 ∧
    Fault.vector .alignmentCheck = 17 ∧ Fault.vector .simdFloatingPoint = 19) ∧
  (Fault.errorCode .invalidOpcode = none ∧ Fault.errorCode .invalidOpcodeSimd = none ∧
    Fault.errorCode .deviceNotAvailable = none ∧ Fault.errorCode .stackSegment = some 0 ∧
    Fault.errorCode .generalProtection = some 0 ∧ (∀ c a, Fault.errorCode (.pageFault c a) = some c) ∧
    Fault.errorCode .x87FloatingPoint = none ∧ Fault.errorCode .alignmentCheck = some 0 ∧
    Fault.errorCode .simdFloatingPoint = none) ∧
  (∀ (p u r f : Bool), let c := pageFaultCode p u r f
    c.getLsbD 0 = p ∧ c.getLsbD 1 = false ∧ c.getLsbD 2 = u ∧ c.getLsbD 3 = r ∧ c.getLsbD 4 = f ∧
    c.extractLsb' 5 27 = 0) ∧
  (∀ (s : State) (c : BitVec 32) (a : Word), (s.atFault (.pageFault c a)).cr2 = a) ∧
  (∀ (s : State) (f : Fault), (s.atFault f).pc = s.pc)

/-- Reset leaves every enable bit off, so that every form raises #UD (states R306). -/
def Obligations.EveryFormIsInvalidAfterReset : Prop :=
  State.reset.em = false ∧ State.reset.osfxsr = false ∧ State.reset.osxmmexcpt = false ∧ State.reset.osxsave = false ∧
  State.reset.xcr0 = 1 ∧ ∀ i : Instr, exec i State.reset = .fault .invalidOpcode

/-- In a mode that R300 refuses, step is refused and no instruction completes; reset leaves such a mode (10_state.md
section 10, 70_reset_and_hazards.md sections 1 and 2). -/
def Obligations.OtherModesAreRefused : Prop :=
  (∀ s : State, s.mode.modelled = false → step s = .refused .modeOutOfScope ∧ ∀ (i : Instr) (t : State), exec i s ≠ .next t) ∧
  (∀ m : Mode, m.modelled = true ↔ m = .bits64 ∨ m = .bits32) ∧ State.reset.mode = .realAddress

/-- A refused fetch of any byte of an instruction ends the step in #PF (I/D = 1) or #GP(0); 15 bytes without an end,
in #GP(0) (20_memory.md sections 4 and 5, 30_encoding.md section 1, 60_exceptions.md section 3). -/
def Obligations.FetchStopsTheStep : Prop :=
  (∀ (s : State) (k : Nat), s.mode.modelled = true → s.pc.toNat + k ≤ s.addressLimit →
    (∀ j, j < k → Admission.answer s.fetchMap (s.pc.toNat + j) = .granted) →
    decode s.mode64 ((List.range k).map fun j => s.mem.read (s.pc.toNat + j)) = .short →
    (∀ p r : Bool, k < 15 → s.pc.toNat + k < s.addressLimit →
      Admission.answer s.fetchMap (s.pc.toNat + k) = .pageFault p r →
      step s = .fault (.pageFault (pageFaultCode p (decide (s.cpl = 3)) r true) (BitVec.ofNat 64 (s.pc.toNat + k)))) ∧
    (k < 15 → s.pc.toNat + k < s.addressLimit → Admission.answer s.fetchMap (s.pc.toNat + k) = .segmentFault →
      step s = .fault .generalProtection) ∧
    (k = 15 → step s = .fault .generalProtection)) ∧
  (∀ (m64 : Bool) (i : Instr) (pre ins post : List Byte) (k : Nat), i.wf m64 = true → encode i = pre ++ post →
    (∀ x ∈ pre, isPrefixByte x = true) →
    (ins = [] ∨ ins = [0xF0#8] ∨ (vexShape i = true ∧ ∃ b, ins = [b] ∧ isMandatoryByte b = true) ∨
      (vexShape i = true ∧ m64 = true ∧ (post.head? = some 0xC4#8 ∨ post.head? = some 0xC5#8) ∧
        ∃ b, ins = [b] ∧ isRexByte b = true)) →
    k < i.len + ins.length → decode m64 ((pre ++ ins ++ post).take k) = .short)

/-- Each row's table word decodes to the row, and placed after reset it runs to a next state (30_encoding.md section
6, 10_state.md section 8, 70_reset_and_hazards.md sections 1 to 3). -/
def Obligations.EveryTableRowRunsWhenPlaced : Prop :=
  ∀ f : Form, ∃ i t, decodeTableWord 24 f.bits.toNat = some i ∧ i.fields.form = f ∧
    step (State.reset.withFetchWord 24 f.bits.toNat) = .next t

/-! ### Memory -/

/-- A form depends on no memory but the bytes of its operand, and completes only if each of them is admitted (states
R65). -/
def Obligations.LoadReadsExactlyTheOperandBytes : Prop :=
  ∀ (i : Instr) (s : State) (mem' : Memory),
    (∀ m, memoryOperand i = some m → ∀ k, k < loadBytes i →
      mem'.read (operandByte i m s k).toNat = s.mem.read (operandByte i m s k).toNat) →
    (∀ t, exec i s = .next t → exec i { s with mem := mem' } = .next { t with mem := mem' } ∧
      ∀ m, memoryOperand i = some m → ∀ k, k < loadBytes i →
        Admission.answer s.loadMap (operandByte i m s k).toNat = .granted) ∧
    (∀ f, exec i s = .fault f → exec i { s with mem := mem' } = .fault f) ∧
    (∀ r, exec i s = .refused r → exec i { s with mem := mem' } = .refused r)

/-- MemRead gives byte k of its result from address addr + k, and needs every byte admitted (20_memory.md section 2).
-/
def Obligations.MemReadIsLittleEndian : Prop :=
  ∀ (w : Nat) (s : State) (g : Seg) (a : Word) (aligned : Bool) (v : BitVec w), memRead w s g a aligned = .ok v →
    (∀ k, 8 * k + 8 ≤ w →
      Admission.answer s.loadMap (byteAddress s.mode64 a k).toNat = .granted ∧
      v.extractLsb' (8 * k) 8 = s.mem.read (byteAddress s.mode64 a k).toNat ∧
      (byteAddress s.mode64 a k).toNat = (a.toNat + k) % (if s.mode64 then 2 ^ 64 else 2 ^ 32)) ∧
    (∀ (n : Nat) (x : BitVec (8 * n)), 8 * n ≤ w → memRead (8 * n) s g a aligned = .ok x → x = v.extractLsb' 0 (8 * n))

/-- MemRead after MemWrite at the same address gives the value written, and no other byte changed (20_memory.md
section 2). -/
def Obligations.MemReadAfterMemWriteGivesTheValue : Prop :=
  ∀ (w : Nat) (s t : State) (g : Seg) (a : Word) (aligned : Bool) (v : BitVec w), w = 64 ∨ w = 128 ∨ w = 256 →
    s.mem.wf = true → memWrite s g a aligned v = .ok t →
    memRead w t g a aligned = .ok v ∧
    (∀ x : Nat, (∀ k, k < w / 8 → x ≠ (byteAddress s.mode64 a k).toNat) → t.mem.read x = s.mem.read x) ∧
    t.mem.wf = true ∧ t = { s with mem := t.mem }

/-- The effective address is base + index*scale + disp, or next pc + disp32, modulo 2^asz; the linear one adds the
base (states R70, R71). -/
def Obligations.LinearAddressIsTheSumModuloTheAddressSize : Prop :=
  ∀ (m : Mem) (override : Option Seg) (addr32 : Bool) (len : Nat) (s : State),
    (∀ bits : Nat, bits = (if addr32 || !s.mode64 then 32 else 64) →
      ((Mem.effective m addr32 len s).toNat : Int) = addressSum bits m len s % (2 ^ bits : Nat)) ∧
    (Mem.linear m override addr32 len s).toNat =
      ((segBase s (Mem.segment s.mode64 m override)).toNat + (Mem.effective m addr32 len s).toNat) %
        (if s.mode64 then 2 ^ 64 else 2 ^ 32) ∧
    (∀ g : Seg, segBase s g =
      (if s.mode64 = true ∧ g = .fs then s.fsBase else if s.mode64 = true ∧ g = .gs then s.gsBase else 0))

/-! ### Conversion primitives -/

/-- I32toF64 gives the F64 of the integer's sign and exact value, and no flag (states R150). -/
def Obligations.IntegerToDoubleIsExact : Prop :=
  ∀ x : BitVec 32, (i32ToF64 x).flags = .none ∧ IsF64 (i32ToF64 x).value (decide (x.toInt < 0)) x.toInt ∧
    (x.toInt = 0 → (i32ToF64 x).value = 0) ∧
    (x.toInt ≠ 0 → ∀ e : Nat, e = x.toInt.natAbs.log2 → e ≤ 31 ∧ (i32ToF64 x).value =
      BitVec.ofBool (decide (x.toInt < 0)) ++ BitVec.ofNat 11 (e + 1023) ++
      (BitVec.ofNat 53 (x.toInt.natAbs * 2 ^ (52 - e))).extractLsb' 0 52)

/-- I32toF32 gives the F32 of RoundSig(n, 24, rc), with P exactly when inexact (states R151). -/
def Obligations.IntegerToSingleIsCorrectlyRounded : Prop :=
  ∀ (rc : Rounding) (x : BitVec 32),
    (x.toInt = 0 → i32ToF32 rc x = { value := 0, flags := .none }) ∧
    (x.toInt ≠ 0 → ∃ r : ℚ, Rounds rc (sigGrid 24 x.toInt) x.toInt r ∧ |r| ≤ 2 ^ 31 ∧
      IsF32 (i32ToF32 rc x).value (decide (x.toInt < 0)) r ∧ PrecisionIff (i32ToF32 rc x).flags r x.toInt ∧
      (x.toInt.natAbs ≤ 2 ^ 24 → r = x.toInt))

/-- F64toI32, F64toI64 and F32toI32 round the exact value and give the indefinite integer outside the range (states
R152, R153, R154). -/
def Obligations.FloatToIntegerMatchesTheReference : Prop :=
  ∀ (rc : Rounding) (daz : Bool),
    (∀ b : BitVec 64, IntConversion f64 32 rc daz (unpack64 b) (f64ToI32 rc daz b)) ∧
    (∀ b : BitVec 64, IntConversion f64 64 rc daz (unpack64 b) (f64ToI64 rc daz b)) ∧
    (∀ b : BitVec 32, IntConversion f32 32 rc daz (unpack32 b) (f32ToI32 rc daz b))

/-- F64toF32 rounds, overflows, underflows, flushes and quiets as the six cases of its rule say
(40_conversion_primitives.md section 6). -/
def Obligations.DoubleToSingleMatchesTheReference : Prop :=
  ∀ (rc : Rounding) (daz fz um : Bool) (b : BitVec 64) (s : Bool), s = b.getLsbD 63 →
    (f64.classify (unpack64 b) = .infinity →
      f64ToF32 rc daz fz um b = { value := infiniteF32 s, flags := .none }) ∧
    (f64.classify (unpack64 b) = .quiet →
      f64ToF32 rc daz fz um b = { value := BitVec.ofBool s ++ 0xFF#8 ++ 1#1 ++ b.extractLsb' 29 22, flags := .none }) ∧
    (f64.classify (unpack64 b) = .signalling →
      f64ToF32 rc daz fz um b =
        { value := BitVec.ofBool s ++ 0xFF#8 ++ 1#1 ++ b.extractLsb' 29 22, flags := .onlyInvalid }) ∧
    (f64.classify (unpack64 b) = .zero ∨ (f64.classify (unpack64 b) = .denormal ∧ daz = true) →
      f64ToF32 rc daz fz um b = { value := zeroF32 s, flags := .none }) ∧
    (f64.classify (unpack64 b) = .denormal → daz = false →
      ∃ c, NarrowedValue rc fz um s (f64.val (unpack64 b)) c ∧
        f64ToF32 rc daz fz um b = { value := c.value, flags := { c.flags with denormal := true } }) ∧
    (f64.classify (unpack64 b) = .normal →
      NarrowedValue rc fz um s (f64.val (unpack64 b)) (f64ToF32 rc daz fz um b))

/-- F32toF64 keeps sign and exact value, quiets a signalling NaN with I, and notes a denormal with D (states R156). -/
def Obligations.SingleToDoubleIsExact : Prop :=
  ∀ (daz : Bool) (b : BitVec 32) (s : Bool), s = b.getLsbD 31 →
    (f32.classify (unpack32 b) = .infinity →
      f32ToF64 daz b = { value := BitVec.ofBool s ++ 0x7FF#11 ++ 0#52, flags := .none }) ∧
    (f32.classify (unpack32 b) = .quiet →
      f32ToF64 daz b = { value := BitVec.ofBool s ++ 0x7FF#11 ++ b.extractLsb' 0 23 ++ 0#29, flags := .none }) ∧
    (f32.classify (unpack32 b) = .signalling →
      f32ToF64 daz b =
        { value := BitVec.ofBool s ++ 0x7FF#11 ++ 1#1 ++ b.extractLsb' 0 22 ++ 0#29, flags := .onlyInvalid }) ∧
    (f32.classify (unpack32 b) = .zero ∨ (f32.classify (unpack32 b) = .denormal ∧ daz = true) →
      f32ToF64 daz b = { value := BitVec.ofBool s ++ 0#63, flags := .none }) ∧
    (f32.classify (unpack32 b) = .denormal → daz = false →
      IsF64 (f32ToF64 daz b).value s (f32.val (unpack32 b)) ∧
      (f32ToF64 daz b).flags = { FpFlags.none with denormal := true }) ∧
    (f32.classify (unpack32 b) = .normal →
      IsF64 (f32ToF64 daz b).value s (f32.val (unpack32 b)) ∧
      f32ToF64 daz b =
        { value := BitVec.ofBool s ++ BitVec.ofNat 11 ((b.extractLsb' 23 8).toNat + 896) ++ b.extractLsb' 0 23 ++ 0#29,
          flags := .none })

/-- An invalid operand suppresses every other flag; overflow and masked underflow bring P; D only with a denormal, and
with U (states R173). -/
def Obligations.PossibleFlagsOfEachPrimitive : Prop :=
  (∀ (rc : Rounding) (x : BitVec 32), (i32ToF32 rc x).flags = .none ∨ (i32ToF32 rc x).flags = .inexact true) ∧
  (∀ (rc : Rounding) (daz : Bool) (b : BitVec 64) (c : BitVec 32),
    ((f64ToI32 rc daz b).flags = .none ∨ (f64ToI32 rc daz b).flags = .onlyInvalid ∨
      (f64ToI32 rc daz b).flags = .inexact true) ∧
    ((f64ToI64 rc daz b).flags = .none ∨ (f64ToI64 rc daz b).flags = .onlyInvalid ∨
      (f64ToI64 rc daz b).flags = .inexact true) ∧
    ((f32ToI32 rc daz c).flags = .none ∨ (f32ToI32 rc daz c).flags = .onlyInvalid ∨
      (f32ToI32 rc daz c).flags = .inexact true) ∧
    ((f32ToF64 daz c).flags = .none ∨ (f32ToF64 daz c).flags = .onlyInvalid ∨
      (f32ToF64 daz c).flags = { FpFlags.none with denormal := true })) ∧
  (∀ (rc : Rounding) (daz fz um : Bool) (b : BitVec 64), let g := (f64ToF32 rc daz fz um b).flags
    (g.invalid = true → g = .onlyInvalid) ∧ (g.overflow = true → g.precision = true ∧ g.underflow = false) ∧
    (um = true → g.underflow = true → g.precision = true) ∧
    (g.denormal = true ↔ f64.classify (unpack64 b) = .denormal ∧ daz = false) ∧
    (g.denormal = true → g.underflow = true ∧ (um = true → g.precision = true) ∧ g.overflow = false ∧ g.invalid = false))

/-- A doubleword converted to double precision and back is itself, in every rounding mode, with no flag
(95_test_vectors.md P1, 40_conversion_primitives.md sections 4 and 5). -/
def Obligations.IntegerRoundTripThroughDouble : Prop :=
  ∀ (rc : Rounding) (daz : Bool) (x : BitVec 32), f64ToI32 rc daz (i32ToF64 x).value = { value := x, flags := .none }

/-- A single-precision value widened and narrowed again is itself with no flag (40_conversion_primitives.md section
6). -/
def Obligations.SingleRoundTripThroughDouble : Prop :=
  ∀ (rc : Rounding) (daz daz' fz um : Bool) (b : BitVec 32),
    (f32.classify (unpack32 b) ≠ .denormal → f32.classify (unpack32 b) ≠ .signalling →
      f64ToF32 rc daz fz um (f32ToF64 daz' b).value = { value := b, flags := .none }) ∧
    (f32.classify (unpack32 b) = .denormal →
      f64ToF32 rc daz false true (f32ToF64 false b).value = { value := b, flags := .none }) ∧
    (f32.classify (unpack32 b) = .signalling →
      f64ToF32 rc daz fz um (f32ToF64 daz' b).value = { value := b ||| 0x00400000#32, flags := .none })

/-! ### Results of the instructions -/

/-- CVTDQ2PD and VCVTDQ2PD: result, completion and frame of the three forms (41_cvtdq2pd_cvtdq2ps.md section 2
(pseudocode)). -/
def Obligations.Cvtdq2pdConvertsToDouble : Prop :=
  (∀ (e : LegacyEnc) (d : VecReg) (src : RM 16) (s : State) (v : BitVec 64), LegacyReady s s.params.sse2 →
    legacySource 64 false e (Instr.cvtdq2pd e d src).len src s = .ok v →
    ∃ t, exec (.cvtdq2pd e d src) s = .next t ∧
      t.ymm[d] = s.ymm[d].extractLsb' 128 128 ++ results2 i32ToF64 v ∧ t.mxcsr = s.mxcsr ∧
      VecCommit s t d .none (Instr.cvtdq2pd e d src).len) ∧
  (∀ (e : VexEnc) (d : VecReg) (src : RM 16) (s : State) (v : BitVec 64), VexReady s →
    vexSource 64 e (Instr.vcvtdq2pd128 e d src).len src s = .ok v →
    ∃ t, exec (.vcvtdq2pd128 e d src) s = .next t ∧ t.ymm[d] = 0#128 ++ results2 i32ToF64 v ∧ t.mxcsr = s.mxcsr ∧
      VecCommit s t d .none (Instr.vcvtdq2pd128 e d src).len) ∧
  (∀ (e : VexEnc) (d : VecReg) (src : RM 16) (s : State) (v : BitVec 128), VexReady s →
    vexSource 128 e (Instr.vcvtdq2pd256 e d src).len src s = .ok v →
    ∃ t, exec (.vcvtdq2pd256 e d src) s = .next t ∧ t.ymm[d] = results4 i32ToF64 v ∧ t.mxcsr = s.mxcsr ∧
      VecCommit s t d .none (Instr.vcvtdq2pd256 e d src).len)

/-- CVTDQ2PS and VCVTDQ2PS: result, flags, completion and frame of the three forms (41_cvtdq2pd_cvtdq2ps.md section 3
(pseudocode)). -/
def Obligations.Cvtdq2psConvertsToSingle : Prop :=
  (∀ (e : LegacyEnc) (d : VecReg) (src : RM 16) (s : State) (v : BitVec 128), LegacyReady s s.params.sse2 →
    legacySource 128 true e (Instr.cvtdq2ps e d src).len src s = .ok v →
    Completes s (exec (.cvtdq2ps e d src) s) (flags4 (i32ToF32 s.rc) v) fun t =>
      t.ymm[d] = s.ymm[d].extractLsb' 128 128 ++ results4 (i32ToF32 s.rc) v ∧
      VecCommit s t d (flags4 (i32ToF32 s.rc) v) (Instr.cvtdq2ps e d src).len) ∧
  (∀ (e : VexEnc) (d : VecReg) (src : RM 16) (s : State) (v : BitVec 128), VexReady s →
    vexSource 128 e (Instr.vcvtdq2ps128 e d src).len src s = .ok v →
    Completes s (exec (.vcvtdq2ps128 e d src) s) (flags4 (i32ToF32 s.rc) v) fun t =>
      t.ymm[d] = 0#128 ++ results4 (i32ToF32 s.rc) v ∧ VecCommit s t d (flags4 (i32ToF32 s.rc) v) (Instr.vcvtdq2ps128 e d src).len) ∧
  (∀ (e : VexEnc) (d : VecReg) (src : RM 16) (s : State) (v : BitVec 256), VexReady s →
    vexSource 256 e (Instr.vcvtdq2ps256 e d src).len src s = .ok v →
    Completes s (exec (.vcvtdq2ps256 e d src) s) (flags8 (i32ToF32 s.rc) v) fun t =>
      t.ymm[d] = results8 (i32ToF32 s.rc) v ∧ VecCommit s t d (flags8 (i32ToF32 s.rc) v) (Instr.vcvtdq2ps256 e d src).len)

/-- CVTPD2DQ and VCVTPD2DQ: result, flags, completion and frame of the three forms (42_cvtpd2dq_cvtpd2pi_cvtpd2ps.md
section 1 (pseudocode)). -/
def Obligations.Cvtpd2dqConvertsToInteger : Prop :=
  (∀ (e : LegacyEnc) (d : VecReg) (src : RM 16) (s : State) (v : BitVec 128), LegacyReady s s.params.sse2 →
    legacySource 128 true e (Instr.cvtpd2dq e d src).len src s = .ok v →
    Completes s (exec (.cvtpd2dq e d src) s) (flags2 (f64ToI32 s.rc s.daz) v) fun t =>
      t.ymm[d] = s.ymm[d].extractLsb' 128 128 ++ (0#64 ++ results2 (f64ToI32 s.rc s.daz) v) ∧
      VecCommit s t d (flags2 (f64ToI32 s.rc s.daz) v) (Instr.cvtpd2dq e d src).len) ∧
  (∀ (e : VexEnc) (d : VecReg) (src : RM 16) (s : State) (v : BitVec 128), VexReady s →
    vexSource 128 e (Instr.vcvtpd2dq128 e d src).len src s = .ok v →
    Completes s (exec (.vcvtpd2dq128 e d src) s) (flags2 (f64ToI32 s.rc s.daz) v) fun t =>
      t.ymm[d] = 0#192 ++ results2 (f64ToI32 s.rc s.daz) v ∧ VecCommit s t d (flags2 (f64ToI32 s.rc s.daz) v) (Instr.vcvtpd2dq128 e d src).len) ∧
  (∀ (e : VexEnc) (d : VecReg) (src : RM 16) (s : State) (v : BitVec 256), VexReady s →
    vexSource 256 e (Instr.vcvtpd2dq256 e d src).len src s = .ok v →
    Completes s (exec (.vcvtpd2dq256 e d src) s) (flags4 (f64ToI32 s.rc s.daz) v) fun t =>
      t.ymm[d] = 0#128 ++ results4 (f64ToI32 s.rc s.daz) v ∧ VecCommit s t d (flags4 (f64ToI32 s.rc s.daz) v) (Instr.vcvtpd2dq256 e d src).len)

/-- CVTPD2PS and VCVTPD2PS: result, flags, completion and frame of the three forms (42_cvtpd2dq_cvtpd2pi_cvtpd2ps.md
section 3 (pseudocode)). -/
def Obligations.Cvtpd2psConvertsToSingle : Prop :=
  (∀ (e : LegacyEnc) (d : VecReg) (src : RM 16) (s : State) (v : BitVec 128), LegacyReady s s.params.sse2 →
    legacySource 128 true e (Instr.cvtpd2ps e d src).len src s = .ok v →
    Completes s (exec (.cvtpd2ps e d src) s) (flags2 (f64ToF32 s.rc s.daz s.fz s.um) v) fun t =>
      t.ymm[d] = s.ymm[d].extractLsb' 128 128 ++ (0#64 ++ results2 (f64ToF32 s.rc s.daz s.fz s.um) v) ∧
      VecCommit s t d (flags2 (f64ToF32 s.rc s.daz s.fz s.um) v) (Instr.cvtpd2ps e d src).len) ∧
  (∀ (e : VexEnc) (d : VecReg) (src : RM 16) (s : State) (v : BitVec 128), VexReady s →
    vexSource 128 e (Instr.vcvtpd2ps128 e d src).len src s = .ok v →
    Completes s (exec (.vcvtpd2ps128 e d src) s) (flags2 (f64ToF32 s.rc s.daz s.fz s.um) v) fun t =>
      t.ymm[d] = 0#192 ++ results2 (f64ToF32 s.rc s.daz s.fz s.um) v ∧ VecCommit s t d (flags2 (f64ToF32 s.rc s.daz s.fz s.um) v) (Instr.vcvtpd2ps128 e d src).len) ∧
  (∀ (e : VexEnc) (d : VecReg) (src : RM 16) (s : State) (v : BitVec 256), VexReady s →
    vexSource 256 e (Instr.vcvtpd2ps256 e d src).len src s = .ok v →
    Completes s (exec (.vcvtpd2ps256 e d src) s) (flags4 (f64ToF32 s.rc s.daz s.fz s.um) v) fun t =>
      t.ymm[d] = 0#128 ++ results4 (f64ToF32 s.rc s.daz s.fz s.um) v ∧ VecCommit s t d (flags4 (f64ToF32 s.rc s.daz s.fz s.um) v) (Instr.vcvtpd2ps256 e d src).len)

/-- CVTPS2DQ and VCVTPS2DQ: result, flags, completion and frame of the three forms (44_cvtps2dq_cvtps2pd_cvtps2pi.md
section 1 (pseudocode)). -/
def Obligations.Cvtps2dqConvertsToInteger : Prop :=
  (∀ (e : LegacyEnc) (d : VecReg) (src : RM 16) (s : State) (v : BitVec 128), LegacyReady s s.params.sse2 →
    legacySource 128 true e (Instr.cvtps2dq e d src).len src s = .ok v →
    Completes s (exec (.cvtps2dq e d src) s) (flags4 (f32ToI32 s.rc s.daz) v) fun t =>
      t.ymm[d] = s.ymm[d].extractLsb' 128 128 ++ results4 (f32ToI32 s.rc s.daz) v ∧
      VecCommit s t d (flags4 (f32ToI32 s.rc s.daz) v) (Instr.cvtps2dq e d src).len) ∧
  (∀ (e : VexEnc) (d : VecReg) (src : RM 16) (s : State) (v : BitVec 128), VexReady s →
    vexSource 128 e (Instr.vcvtps2dq128 e d src).len src s = .ok v →
    Completes s (exec (.vcvtps2dq128 e d src) s) (flags4 (f32ToI32 s.rc s.daz) v) fun t =>
      t.ymm[d] = 0#128 ++ results4 (f32ToI32 s.rc s.daz) v ∧ VecCommit s t d (flags4 (f32ToI32 s.rc s.daz) v) (Instr.vcvtps2dq128 e d src).len) ∧
  (∀ (e : VexEnc) (d : VecReg) (src : RM 16) (s : State) (v : BitVec 256), VexReady s →
    vexSource 256 e (Instr.vcvtps2dq256 e d src).len src s = .ok v →
    Completes s (exec (.vcvtps2dq256 e d src) s) (flags8 (f32ToI32 s.rc s.daz) v) fun t =>
      t.ymm[d] = results8 (f32ToI32 s.rc s.daz) v ∧ VecCommit s t d (flags8 (f32ToI32 s.rc s.daz) v) (Instr.vcvtps2dq256 e d src).len)

/-- CVTPS2PD and VCVTPS2PD: result, flags, completion and frame of the three forms (44_cvtps2dq_cvtps2pd_cvtps2pi.md
section 2 (pseudocode)). -/
def Obligations.Cvtps2pdConvertsToDouble : Prop :=
  (∀ (e : LegacyEnc) (d : VecReg) (src : RM 16) (s : State) (v : BitVec 64), LegacyReady s s.params.sse2 →
    legacySource 64 false e (Instr.cvtps2pd e d src).len src s = .ok v →
    Completes s (exec (.cvtps2pd e d src) s) (flags2 (f32ToF64 s.daz) v) fun t =>
      t.ymm[d] = s.ymm[d].extractLsb' 128 128 ++ results2 (f32ToF64 s.daz) v ∧
      VecCommit s t d (flags2 (f32ToF64 s.daz) v) (Instr.cvtps2pd e d src).len) ∧
  (∀ (e : VexEnc) (d : VecReg) (src : RM 16) (s : State) (v : BitVec 64), VexReady s →
    vexSource 64 e (Instr.vcvtps2pd128 e d src).len src s = .ok v →
    Completes s (exec (.vcvtps2pd128 e d src) s) (flags2 (f32ToF64 s.daz) v) fun t =>
      t.ymm[d] = 0#128 ++ results2 (f32ToF64 s.daz) v ∧ VecCommit s t d (flags2 (f32ToF64 s.daz) v) (Instr.vcvtps2pd128 e d src).len) ∧
  (∀ (e : VexEnc) (d : VecReg) (src : RM 16) (s : State) (v : BitVec 128), VexReady s →
    vexSource 128 e (Instr.vcvtps2pd256 e d src).len src s = .ok v →
    Completes s (exec (.vcvtps2pd256 e d src) s) (flags4 (f32ToF64 s.daz) v) fun t =>
      t.ymm[d] = results4 (f32ToF64 s.daz) v ∧ VecCommit s t d (flags4 (f32ToF64 s.daz) v) (Instr.vcvtps2pd256 e d src).len)

/-- CVTPD2PI and CVTPS2PI: result, flags, transition, completion and frame (42_cvtpd2dq_cvtpd2pi_cvtpd2ps.md section 2
(pseudocode), 44_cvtps2dq_cvtps2pd_cvtps2pi.md section 3 (pseudocode)). -/
def Obligations.MmxDestinationFormsConvertToInteger : Prop :=
  (∀ (e : LegacyEnc) (d : MmxReg) (src : RM 16) (s : State) (v : BitVec 128), LegacyReady s s.params.sse2 →
    s.x87Pending = false → legacySource 128 true e (Instr.cvtpd2pi e d src).len src s = .ok v →
    Completes s (exec (.cvtpd2pi e d src) s) (flags2 (f64ToI32 s.rc s.daz) v) fun t =>
      t.mm d = results2 (f64ToI32 s.rc s.daz) v ∧ MmxCommit s t d (flags2 (f64ToI32 s.rc s.daz) v) (Instr.cvtpd2pi e d src).len) ∧
  (∀ (e : LegacyEnc) (d : MmxReg) (src : RM 16) (s : State) (v : BitVec 64), LegacyReady s s.params.sse →
    s.x87Pending = false → legacySource 64 false e (Instr.cvtps2pi e d src).len src s = .ok v →
    Completes s (exec (.cvtps2pi e d src) s) (flags2 (f32ToI32 s.rc s.daz) v) fun t =>
      t.mm d = results2 (f32ToI32 s.rc s.daz) v ∧ MmxCommit s t d (flags2 (f32ToI32 s.rc s.daz) v) (Instr.cvtps2pi e d src).len)

/-- CVTPI2PD and CVTPI2PS: result, flags, transition, completion and frame of both operand forms
(43_cvtpi2pd_cvtpi2ps.md (pseudocode of both pages)). -/
def Obligations.MmxSourceFormsConvertToFloat : Prop :=
  (∀ (e : LegacyEnc) (d : VecReg) (r : MmxReg) (s : State), LegacyReady s s.params.sse2 → s.x87Pending = false →
    ∃ t, exec (.cvtpi2pd e d (.reg r)) s = .next t ∧
      t.ymm[d] = s.ymm[d].extractLsb' 128 128 ++ results2 i32ToF64 (s.mm r) ∧ t.mxcsr = s.mxcsr ∧
      MmxSourceCommit s t d .none (Instr.cvtpi2pd e d (.reg r)).len) ∧
  (∀ (e : LegacyEnc) (d : VecReg) (m : Mem) (s : State) (v : BitVec 64), LegacyReady s s.params.sse2 →
    mmxSource e (Instr.cvtpi2pd e d (.mem m)).len (.mem m) s = .ok v →
    ∃ t, exec (.cvtpi2pd e d (.mem m)) s = .next t ∧
      t.ymm[d] = s.ymm[d].extractLsb' 128 128 ++ results2 i32ToF64 v ∧ t.mxcsr = s.mxcsr ∧
      VecCommit s t d .none (Instr.cvtpi2pd e d (.mem m)).len) ∧
  (∀ (e : LegacyEnc) (d : VecReg) (src : RM 8) (s : State) (v : BitVec 64), LegacyReady s s.params.sse →
    s.x87Pending = false → mmxSource e (Instr.cvtpi2ps e d src).len src s = .ok v →
    Completes s (exec (.cvtpi2ps e d src) s) (flags2 (i32ToF32 s.rc) v) fun t =>
      t.ymm[d] = s.ymm[d].extractLsb' 64 192 ++ results2 (i32ToF32 s.rc) v ∧
      MmxSourceCommit s t d (flags2 (i32ToF32 s.rc) v) (Instr.cvtpi2ps e d src).len)

/-- CVTSD2SI and VCVTSD2SI: result, flags, completion and frame of the four forms (45_cvtsd2si.md (pseudocode),
10_state.md section 4). -/
def Obligations.Cvtsd2siConvertsToGeneralRegister : Prop :=
  (∀ (e : LegacyEnc) (d : GenReg) (src : RM 16) (s : State) (v : BitVec 64), LegacyReady s s.params.sse2 →
    legacySource 64 false e (Instr.cvtsd2si32 e d src).len src s = .ok v →
    Completes s (exec (.cvtsd2si32 e d src) s) (f64ToI32 s.rc s.daz v).flags fun t =>
      t.gpr[d] = (if s.mode64 then 0#32 else s.gpr[d].extractLsb' 32 32) ++ (f64ToI32 s.rc s.daz v).value ∧ GprCommit s t d (f64ToI32 s.rc s.daz v).flags (Instr.cvtsd2si32 e d src).len) ∧
  (∀ (e : LegacyEnc) (d : GenReg) (src : RM 16) (s : State) (v : BitVec 64), LegacyReady s s.params.sse2 → s.mode64 = true →
    legacySource 64 false e (Instr.cvtsd2si64 e d src).len src s = .ok v →
    Completes s (exec (.cvtsd2si64 e d src) s) (f64ToI64 s.rc s.daz v).flags fun t =>
      t.gpr[d] = (f64ToI64 s.rc s.daz v).value ∧ GprCommit s t d (f64ToI64 s.rc s.daz v).flags (Instr.cvtsd2si64 e d src).len) ∧
  (∀ (e : LegacyEnc) (d : GenReg) (src : RM 16) (s : State) (v : BitVec 64), LegacyReady s s.params.sse2 → s.mode64 = false →
    legacySource 64 false e (Instr.cvtsd2si64 e d src).len src s = .ok v →
    Completes s (exec (.cvtsd2si64 e d src) s) (f64ToI32 s.rc s.daz v).flags fun t =>
      t.gpr[d] = s.gpr[d].extractLsb' 32 32 ++ (f64ToI32 s.rc s.daz v).value ∧ GprCommit s t d (f64ToI32 s.rc s.daz v).flags (Instr.cvtsd2si64 e d src).len) ∧
  (∀ (e : VexEnc) (d : GenReg) (src : RM 16) (s : State) (v : BitVec 64), VexReady s →
    vexSource 64 e (Instr.vcvtsd2si32 e d src).len src s = .ok v →
    Completes s (exec (.vcvtsd2si32 e d src) s) (f64ToI32 s.rc s.daz v).flags fun t =>
      t.gpr[d] = (if s.mode64 then 0#32 else s.gpr[d].extractLsb' 32 32) ++ (f64ToI32 s.rc s.daz v).value ∧ GprCommit s t d (f64ToI32 s.rc s.daz v).flags (Instr.vcvtsd2si32 e d src).len) ∧
  (∀ (e : VexEnc) (d : GenReg) (src : RM 16) (s : State) (v : BitVec 64), VexReady s → s.mode64 = true →
    vexSource 64 e (Instr.vcvtsd2si64 e d src).len src s = .ok v →
    Completes s (exec (.vcvtsd2si64 e d src) s) (f64ToI64 s.rc s.daz v).flags fun t =>
      t.gpr[d] = (f64ToI64 s.rc s.daz v).value ∧ GprCommit s t d (f64ToI64 s.rc s.daz v).flags (Instr.vcvtsd2si64 e d src).len) ∧
  (∀ (e : VexEnc) (d : GenReg) (src : RM 16) (s : State) (v : BitVec 64), VexReady s → s.mode64 = false →
    vexSource 64 e (Instr.vcvtsd2si64 e d src).len src s = .ok v →
    Completes s (exec (.vcvtsd2si64 e d src) s) (f64ToI32 s.rc s.daz v).flags fun t =>
      t.gpr[d] = s.gpr[d].extractLsb' 32 32 ++ (f64ToI32 s.rc s.daz v).value ∧ GprCommit s t d (f64ToI32 s.rc s.daz v).flags (Instr.vcvtsd2si64 e d src).len)

/-! ### Sources, reset and INIT, runs -/

/-- With a register source a form reads the low bits of that register, with a memory source MemRead at its address
(10_state.md sections 2 and 3, 30_encoding.md section 5, 41_cvtdq2pd_cvtdq2ps.md section 1). -/
def Obligations.SourceIsTheNamedRegisterOrTheMemoryOperand : Prop :=
  (∀ (w : Nat) (aligned : Bool) (e : LegacyEnc) (len : Nat) (r : Fin 16) (s : State),
    legacySource w aligned e len (.reg r) s = .ok (s.ymm[r].extractLsb' 0 w)) ∧
  (∀ (w : Nat) (e : VexEnc) (len : Nat) (r : Fin 16) (s : State),
    vexSource w e len (.reg r) s = .ok (s.ymm[r].extractLsb' 0 w)) ∧
  (∀ (e : LegacyEnc) (len : Nat) (r : Fin 8) (s : State), mmxSource e len (.reg r) s = .ok (s.x87[r].extractLsb' 0 64)) ∧
  (∀ (e : LegacyEnc) (d : VecReg) (m : Mem) (s : State),
    legacySource 64 false e (Instr.cvtdq2pd e d (.mem m)).len (.mem m) s = readOperand 64 (.cvtdq2pd e d (.mem m)) m s ∧
    legacySource 128 true e (Instr.cvtdq2ps e d (.mem m)).len (.mem m) s = readOperand 128 (.cvtdq2ps e d (.mem m)) m s ∧
    legacySource 128 true e (Instr.cvtpd2dq e d (.mem m)).len (.mem m) s = readOperand 128 (.cvtpd2dq e d (.mem m)) m s ∧
    legacySource 128 true e (Instr.cvtpd2ps e d (.mem m)).len (.mem m) s = readOperand 128 (.cvtpd2ps e d (.mem m)) m s ∧
    legacySource 128 true e (Instr.cvtps2dq e d (.mem m)).len (.mem m) s = readOperand 128 (.cvtps2dq e d (.mem m)) m s ∧
    legacySource 64 false e (Instr.cvtps2pd e d (.mem m)).len (.mem m) s = readOperand 64 (.cvtps2pd e d (.mem m)) m s ∧
    mmxSource e (Instr.cvtpi2pd e d (.mem m)).len (.mem m) s = readOperand 64 (.cvtpi2pd e d (.mem m)) m s ∧
    mmxSource e (Instr.cvtpi2ps e d (.mem m)).len (.mem m) s = readOperand 64 (.cvtpi2ps e d (.mem m)) m s) ∧
  (∀ (e : LegacyEnc) (d : MmxReg) (m : Mem) (s : State),
    legacySource 128 true e (Instr.cvtpd2pi e d (.mem m)).len (.mem m) s = readOperand 128 (.cvtpd2pi e d (.mem m)) m s ∧
    legacySource 64 false e (Instr.cvtps2pi e d (.mem m)).len (.mem m) s = readOperand 64 (.cvtps2pi e d (.mem m)) m s) ∧
  (∀ (e : LegacyEnc) (d : GenReg) (m : Mem) (s : State),
    legacySource 64 false e (Instr.cvtsd2si32 e d (.mem m)).len (.mem m) s = readOperand 64 (.cvtsd2si32 e d (.mem m)) m s ∧
    legacySource 64 false e (Instr.cvtsd2si64 e d (.mem m)).len (.mem m) s = readOperand 64 (.cvtsd2si64 e d (.mem m)) m s) ∧
  (∀ (e : VexEnc) (d : VecReg) (m : Mem) (s : State),
    vexSource 64 e (Instr.vcvtdq2pd128 e d (.mem m)).len (.mem m) s = readOperand 64 (.vcvtdq2pd128 e d (.mem m)) m s ∧
    vexSource 128 e (Instr.vcvtdq2pd256 e d (.mem m)).len (.mem m) s = readOperand 128 (.vcvtdq2pd256 e d (.mem m)) m s ∧
    vexSource 128 e (Instr.vcvtdq2ps128 e d (.mem m)).len (.mem m) s = readOperand 128 (.vcvtdq2ps128 e d (.mem m)) m s ∧
    vexSource 256 e (Instr.vcvtdq2ps256 e d (.mem m)).len (.mem m) s = readOperand 256 (.vcvtdq2ps256 e d (.mem m)) m s ∧
    vexSource 128 e (Instr.vcvtpd2dq128 e d (.mem m)).len (.mem m) s = readOperand 128 (.vcvtpd2dq128 e d (.mem m)) m s ∧
    vexSource 256 e (Instr.vcvtpd2dq256 e d (.mem m)).len (.mem m) s = readOperand 256 (.vcvtpd2dq256 e d (.mem m)) m s ∧
    vexSource 128 e (Instr.vcvtpd2ps128 e d (.mem m)).len (.mem m) s = readOperand 128 (.vcvtpd2ps128 e d (.mem m)) m s ∧
    vexSource 256 e (Instr.vcvtpd2ps256 e d (.mem m)).len (.mem m) s = readOperand 256 (.vcvtpd2ps256 e d (.mem m)) m s ∧
    vexSource 128 e (Instr.vcvtps2dq128 e d (.mem m)).len (.mem m) s = readOperand 128 (.vcvtps2dq128 e d (.mem m)) m s ∧
    vexSource 256 e (Instr.vcvtps2dq256 e d (.mem m)).len (.mem m) s = readOperand 256 (.vcvtps2dq256 e d (.mem m)) m s ∧
    vexSource 64 e (Instr.vcvtps2pd128 e d (.mem m)).len (.mem m) s = readOperand 64 (.vcvtps2pd128 e d (.mem m)) m s ∧
    vexSource 128 e (Instr.vcvtps2pd256 e d (.mem m)).len (.mem m) s = readOperand 128 (.vcvtps2pd256 e d (.mem m)) m s) ∧
  (∀ (e : VexEnc) (d : GenReg) (m : Mem) (s : State),
    vexSource 64 e (Instr.vcvtsd2si32 e d (.mem m)).len (.mem m) s = readOperand 64 (.vcvtsd2si32 e d (.mem m)) m s ∧
    vexSource 64 e (Instr.vcvtsd2si64 e d (.mem m)).len (.mem m) s = readOperand 64 (.vcvtsd2si64 e d (.mem m)) m s) ∧
  (∀ (w : Nat) (i : Instr) (m : Mem) (s : State),
    readOperand w i m s = memRead w s (operandSegment i m s) (operandAddress i m s) (needsAlignment i))

/-- After reset every register in scope has its stated value; after INIT MXCSR, the vector and the x87 registers keep
theirs (states R305). -/
def Obligations.ResetAndInitLeaveTheStatedValues : Prop :=
  State.reset.mxcsr = 0x00001F80#32 ∧ (∀ r : VecReg, State.reset.ymm[r] = 0) ∧ (∀ r : MmxReg, State.reset.x87[r] = 0) ∧
  (∀ r : MmxReg, State.reset.mm r = 0) ∧ State.reset.x87Top = 0 ∧ State.reset.x87Tag = 0x5555#16 ∧
  State.reset.x87Pending = false ∧ State.reset.pc = 0x0000FFF0#64 ∧ State.reset.csBase = 0xFFFF0000#64 ∧
  State.reset.csBase + State.reset.pc = 0xFFFFFFF0#64 ∧ State.reset.eflags = 0x00000002#32 ∧ State.reset.ac = false ∧
  (∀ r : GenReg, r ≠ 2 → State.reset.gpr[r] = 0) ∧ State.reset.mode = .realAddress ∧ State.reset.cpl = 0 ∧
  (∀ s : State, (initReset s).mxcsr = s.mxcsr ∧ (∀ r : VecReg, (initReset s).ymm[r] = s.ymm[r]) ∧ SameX87 s (initReset s))

/-- A run executes its text in order and ends just past it, at a fault or at a refusal; a text that wraps is refused
(70_reset_and_hazards.md section 1, 10_state.md section 5). -/
def Obligations.RunOfATextExecutesItsInstructionsInOrder : Prop :=
  (∀ (s : State) (is : List Instr) (n : Nat), s.mode.modelled = true → s.pc.toNat < s.addressLimit →
    (∀ i ∈ is, i.wf s.mode64 = true) → TextAt s (is.flatMap encode) → (is.flatMap encode).length < s.addressLimit →
    is.length ≤ n →
    (∀ t, execAll is s = .next t → run (textEnd s (is.flatMap encode).length) n s = .finished t) ∧
    (∀ (before after : List Instr) (i : Instr) (u : State), is = before ++ i :: after → execAll before s = .next u →
      (∀ f, exec i u = .fault f → run (textEnd s (is.flatMap encode).length) n s = .faulted f (u.atFault f)) ∧
      (∀ r, exec i u = .refused r → run (textEnd s (is.flatMap encode).length) n s = .refused r u))) ∧
  (∀ (s : State) (fin : Word) (n : Nat),
    (s.pc = fin → run fin n s = .finished s) ∧
    (s.pc ≠ fin →
      (∀ t, step s = .next t → run fin (n + 1) s = run fin n t) ∧
      (∀ f, step s = .fault f → run fin (n + 1) s = .faulted f (s.atFault f)) ∧
      (∀ r, step s = .refused r → run fin (n + 1) s = .refused r s))) ∧
  (∀ (s : State) (text : List Byte) (n : Nat),
    (s.addressLimit < s.pc.toNat + text.length → runText text n s = .refused .wrapsAddressSpace s) ∧
    (s.pc.toNat + text.length ≤ s.addressLimit → s.mem.wf = true →
      runText text n s = run (textEnd s text.length) n (placeText s text) ∧ TextAt (placeText s text) text ∧
      (∀ a : Nat, Admission.answer (placeText s text).fetchMap a = .granted ↔
        s.pc.toNat ≤ a ∧ a < s.pc.toNat + text.length) ∧
      (∀ a : Nat, a < s.pc.toNat ∨ s.pc.toNat + text.length ≤ a → (placeText s text).mem.read a = s.mem.read a)))
end

