-- ==== Sys2Proof/Laws/Memory.lean ====
section
/-! SUPPORT. The laws of memory: the canonical form is kept by every operation, a read after a write gives the value written,
a write leaves every other address alone; and what `memRead` and `memWrite` can do. -/

namespace Sys2Proof.Machine

theorem Memory.wfFrom_mono {lo lo' : Nat} (h : lo' ≤ lo) {m : Memory} (hm : Memory.wfFrom lo m = true) :
    Memory.wfFrom lo' m = true := by
  cases m with
  | nil => rfl
  | cons c t =>
    simp only [Memory.wfFrom, Bool.and_eq_true, decide_eq_true_eq] at hm ⊢
    exact ⟨⟨⟨by omega, hm.1.1.2⟩, hm.1.2⟩, hm.2⟩

/-- Below its first address a canonical memory lists nothing. -/
theorem Memory.read_below {lo a : Nat} {m : Memory} (hm : Memory.wfFrom lo m = true) (h : a < lo) :
    m.read a = Memory.unlisted := by
  induction m generalizing lo with
  | nil => rfl
  | cons c t ih =>
    simp only [Memory.wfFrom, Bool.and_eq_true, decide_eq_true_eq] at hm
    have hne : c.1 ≠ a := by omega
    simp only [Memory.read, if_neg hne]
    exact ih hm.2 (by omega)

theorem Memory.push_wfFrom {lo a : Nat} {v : Byte} {m : Memory} (hlo : lo ≤ a) (ha : a < 2 ^ 64)
    (hm : Memory.wfFrom (a + 1) m = true) : Memory.wfFrom lo (Memory.push a v m) = true := by
  unfold Memory.push
  split
  · exact Memory.wfFrom_mono (by omega) hm
  · simp_all [Memory.wfFrom]

theorem Memory.write_wfFrom {lo a : Nat} {v : Byte} {m : Memory} (hlo : lo ≤ a) (ha : a < 2 ^ 64)
    (hm : Memory.wfFrom lo m = true) : Memory.wfFrom lo (m.write a v) = true := by
  induction m generalizing lo with
  | nil => exact Memory.push_wfFrom hlo ha rfl
  | cons c t ih =>
    obtain ⟨k, w⟩ := c
    have hm' := hm
    simp only [Memory.wfFrom, Bool.and_eq_true, decide_eq_true_eq] at hm
    unfold Memory.write
    split
    · refine Memory.push_wfFrom hlo ha ?_
      simp only [Memory.wfFrom, Bool.and_eq_true, decide_eq_true_eq]
      exact ⟨⟨⟨by omega, hm.1.1.2⟩, hm.1.2⟩, hm.2⟩
    · split
      · subst_vars
        exact Memory.push_wfFrom hlo ha hm.2
      · simp only [Memory.wfFrom, Bool.and_eq_true, decide_eq_true_eq]
        exact ⟨hm.1, ih (by omega) hm.2⟩

/-- A write keeps the canonical form. -/
theorem Memory.write_wf {m : Memory} (hm : m.wf = true) {a : Nat} (ha : a < 2 ^ 64) (v : Byte) :
    (m.write a v).wf = true :=
  Memory.write_wfFrom (Nat.zero_le a) ha hm

/-- Writing bytes keeps the canonical form. -/
theorem Memory.writeBytes_wf {m : Memory} (hm : m.wf = true) (a : Word) (l : List Byte) :
    (m.writeBytes a l).wf = true := by
  induction l generalizing m a with
  | nil => exact hm
  | cons b t ih => exact ih (Memory.write_wf hm a.isLt b) (a + 1)

theorem Memory.read_push {a x : Nat} {v : Byte} {m : Memory} (hm : Memory.wfFrom (a + 1) m = true) :
    (Memory.push a v m).read x = if x = a then v else m.read x := by
  unfold Memory.push
  by_cases hv : v = Memory.unlisted
  · by_cases hx : x = a
    · subst hx
      simp [hv, Memory.read_below hm (Nat.lt_succ_self x)]
    · simp [hv, hx]
  · by_cases hx : x = a
    · simp [hv, hx, Memory.read]
    · simp [hv, hx, Memory.read, Ne.symm hx]

/-- A read after a write: the value written at its address, the old byte everywhere else. -/
theorem Memory.read_write {m : Memory} {lo : Nat} (hm : Memory.wfFrom lo m = true) (a x : Nat) (v : Byte) :
    (m.write a v).read x = if x = a then v else m.read x := by
  induction m generalizing lo with
  | nil => exact Memory.read_push (m := []) rfl
  | cons c t ih =>
    obtain ⟨k, w⟩ := c
    simp only [Memory.wfFrom, Bool.and_eq_true, decide_eq_true_eq] at hm
    unfold Memory.write
    split
    · rename_i h
      refine Memory.read_push ?_
      simp only [Memory.wfFrom, Bool.and_eq_true, decide_eq_true_eq]
      exact ⟨⟨⟨by omega, hm.1.1.2⟩, hm.1.2⟩, hm.2⟩
    · split
      · subst_vars
        rw [Memory.read_push hm.2]
        by_cases hx : x = k
        · simp [hx]
        · simp [hx, Memory.read, Ne.symm hx]
      · rename_i hlt hne
        simp only [Memory.read, ih hm.2]
        by_cases hk : k = x
        · have : x ≠ a := by omega
          simp [hk, this]
        · simp [hk]

/-- Bytes written below the top of the address space read back at their addresses; every other address reads as before. -/
theorem Memory.read_writeBytes {m : Memory} (hm : m.wf = true) {a : Word} {l : List Byte} (h : a.toNat + l.length ≤ 2 ^ 64)
    (x : Nat) : (m.writeBytes a l).read x =
      if a.toNat ≤ x then l.getD (x - a.toNat) (m.read x) else m.read x := by
  induction l generalizing m a with
  | nil => simp [Memory.writeBytes]
  | cons b t ih =>
    simp only [List.length_cons] at h
    have hw := Memory.write_wf hm a.isLt b
    cases t with
    | nil =>
      rw [Memory.writeBytes, Memory.writeBytes, Memory.read_write hm]
      by_cases hx : x = a.toNat
      · simp [hx]
      · by_cases hle : a.toNat ≤ x
        · obtain ⟨k, hk⟩ : ∃ k, x - a.toNat = k + 1 := ⟨x - a.toNat - 1, by omega⟩
          simp [hx, hle, hk]
        · simp [hx, hle]
    | cons c u =>
      have ha : (a + 1).toNat = a.toNat + 1 := by
        simp only [List.length_cons] at h
        rw [BitVec.toNat_add]
        simp only [BitVec.reduceToNat]
        omega
      rw [Memory.writeBytes, ih hw (by rw [ha]; omega), ha, Memory.read_write hm]
      by_cases hx : x = a.toNat
      · simp [hx]
      · by_cases hle : a.toNat ≤ x
        · obtain ⟨k, hk⟩ : ∃ k, x - a.toNat = k + 1 := ⟨x - a.toNat - 1, by omega⟩
          have hk' : x - (a.toNat + 1) = k := by omega
          have hle' : a.toNat + 1 ≤ x := by omega
          simp [hx, hle, hle', hk, hk']
        · have hle' : ¬ a.toNat + 1 ≤ x := by omega
          simp [hx, hle, hle']

/-- `memRead` answers the bytes in the machine's order exactly where no load fault applies. -/
theorem memRead_eq_ok_iff {w : Nat} {s : State} {g : Seg} {a : Word} {al : Bool} {v : BitVec w} :
    memRead w s g a al = .ok v ↔
      loadFault s g a (w / 8) al = none ∧ v = ofBytes w (readBytes s.mem s.mode64 a (w / 8)) := by
  unfold memRead
  cases loadFault s g a (w / 8) al <;> simp [eq_comm]

/-- `memRead` stops exactly with the load fault that applies; it never refuses. -/
theorem memRead_eq_error_iff {w : Nat} {s : State} {g : Seg} {a : Word} {al : Bool} {x : Stop} :
    memRead w s g a al = .error x ↔ ∃ f, loadFault s g a (w / 8) al = some f ∧ x = .fault f := by
  unfold memRead
  cases loadFault s g a (w / 8) al <;> simp [eq_comm]

/-- `memWrite` changes nothing but memory, and only where no load fault applies. -/
theorem memWrite_eq_ok {w : Nat} {s t : State} {g : Seg} {a : Word} {al : Bool} {v : BitVec w}
    (h : memWrite s g a al v = .ok t) :
    loadFault s g a (w / 8) al = none ∧ t = { s with mem := t.mem } := by
  unfold memWrite at h
  split at h
  · cases h
  · rename_i hf
    cases h
    exact ⟨hf, rfl⟩

/-- The memory fold of `memWrite` keeps the canonical form. -/
theorem write_fold_wf {m : Memory} (hm : m.wf = true) (m64 : Bool) (a : Word) (l : List (Byte × Nat)) :
    (l.foldl (fun m bk => m.write (byteAddress m64 a bk.2).toNat bk.1) m).wf = true := by
  induction l generalizing m with
  | nil => exact hm
  | cons b t ih => exact ih (Memory.write_wf hm (byteAddress m64 a b.2).isLt b.1)

/-- `memWrite` keeps the canonical form. -/
theorem memWrite_wf {w : Nat} {s t : State} {g : Seg} {a : Word} {al : Bool} {v : BitVec w}
    (hm : s.mem.wf = true) (h : memWrite s g a al v = .ok t) : t.mem.wf = true := by
  unfold memWrite at h
  split at h
  · cases h
  · cases h
    exact write_fold_wf hm s.mode64 a _

/-- The memory right after reset has the canonical form. -/
theorem reset_mem_wf : State.reset.mem.wf = true := rfl

end Sys2Proof.Machine
end

