-- ==== Sys2Proof/Laws/State.lean ====
section
/-! SUPPORT. For every update of the state, one lemma per field, true by rfl, so that no proof unfolds a record update. -/

namespace Sys2Proof.Machine

/-! ### State.writeYmm (R21) -/

@[simp] theorem State.writeYmm_ymm (s : State) (d : VecReg) (v : BitVec 256) : (s.writeYmm d v).ymm = s.ymm.set d v := rfl
@[simp] theorem State.writeYmm_x87 (s : State) (d : VecReg) (v : BitVec 256) : (s.writeYmm d v).x87 = s.x87 := rfl
@[simp] theorem State.writeYmm_x87Top (s : State) (d : VecReg) (v : BitVec 256) : (s.writeYmm d v).x87Top = s.x87Top := rfl
@[simp] theorem State.writeYmm_x87Tag (s : State) (d : VecReg) (v : BitVec 256) : (s.writeYmm d v).x87Tag = s.x87Tag := rfl
@[simp] theorem State.writeYmm_x87Pending (s : State) (d : VecReg) (v : BitVec 256) : (s.writeYmm d v).x87Pending = s.x87Pending := rfl
@[simp] theorem State.writeYmm_gpr (s : State) (d : VecReg) (v : BitVec 256) : (s.writeYmm d v).gpr = s.gpr := rfl
@[simp] theorem State.writeYmm_pc (s : State) (d : VecReg) (v : BitVec 256) : (s.writeYmm d v).pc = s.pc := rfl
@[simp] theorem State.writeYmm_eflags (s : State) (d : VecReg) (v : BitVec 256) : (s.writeYmm d v).eflags = s.eflags := rfl
@[simp] theorem State.writeYmm_mxcsr (s : State) (d : VecReg) (v : BitVec 256) : (s.writeYmm d v).mxcsr = s.mxcsr := rfl
@[simp] theorem State.writeYmm_cr0 (s : State) (d : VecReg) (v : BitVec 256) : (s.writeYmm d v).cr0 = s.cr0 := rfl
@[simp] theorem State.writeYmm_cr2 (s : State) (d : VecReg) (v : BitVec 256) : (s.writeYmm d v).cr2 = s.cr2 := rfl
@[simp] theorem State.writeYmm_cr4 (s : State) (d : VecReg) (v : BitVec 256) : (s.writeYmm d v).cr4 = s.cr4 := rfl
@[simp] theorem State.writeYmm_xcr0 (s : State) (d : VecReg) (v : BitVec 256) : (s.writeYmm d v).xcr0 = s.xcr0 := rfl
@[simp] theorem State.writeYmm_cpl (s : State) (d : VecReg) (v : BitVec 256) : (s.writeYmm d v).cpl = s.cpl := rfl
@[simp] theorem State.writeYmm_csBase (s : State) (d : VecReg) (v : BitVec 256) : (s.writeYmm d v).csBase = s.csBase := rfl
@[simp] theorem State.writeYmm_fsBase (s : State) (d : VecReg) (v : BitVec 256) : (s.writeYmm d v).fsBase = s.fsBase := rfl
@[simp] theorem State.writeYmm_gsBase (s : State) (d : VecReg) (v : BitVec 256) : (s.writeYmm d v).gsBase = s.gsBase := rfl
@[simp] theorem State.writeYmm_mode (s : State) (d : VecReg) (v : BitVec 256) : (s.writeYmm d v).mode = s.mode := rfl
@[simp] theorem State.writeYmm_params (s : State) (d : VecReg) (v : BitVec 256) : (s.writeYmm d v).params = s.params := rfl
@[simp] theorem State.writeYmm_mem (s : State) (d : VecReg) (v : BitVec 256) : (s.writeYmm d v).mem = s.mem := rfl
@[simp] theorem State.writeYmm_fetchMap (s : State) (d : VecReg) (v : BitVec 256) : (s.writeYmm d v).fetchMap = s.fetchMap := rfl
@[simp] theorem State.writeYmm_loadMap (s : State) (d : VecReg) (v : BitVec 256) : (s.writeYmm d v).loadMap = s.loadMap := rfl
@[simp] theorem State.writeYmm_choices (s : State) (d : VecReg) (v : BitVec 256) : (s.writeYmm d v).choices = s.choices := rfl

/-! ### State.writeXmm (R22 (a)) -/

@[simp] theorem State.writeXmm_ymm (s : State) (d : VecReg) (v : BitVec 128) : (s.writeXmm d v).ymm = s.ymm.set d (s.ymm[d].extractLsb' 128 128 ++ v) := rfl
@[simp] theorem State.writeXmm_x87 (s : State) (d : VecReg) (v : BitVec 128) : (s.writeXmm d v).x87 = s.x87 := rfl
@[simp] theorem State.writeXmm_x87Top (s : State) (d : VecReg) (v : BitVec 128) : (s.writeXmm d v).x87Top = s.x87Top := rfl
@[simp] theorem State.writeXmm_x87Tag (s : State) (d : VecReg) (v : BitVec 128) : (s.writeXmm d v).x87Tag = s.x87Tag := rfl
@[simp] theorem State.writeXmm_x87Pending (s : State) (d : VecReg) (v : BitVec 128) : (s.writeXmm d v).x87Pending = s.x87Pending := rfl
@[simp] theorem State.writeXmm_gpr (s : State) (d : VecReg) (v : BitVec 128) : (s.writeXmm d v).gpr = s.gpr := rfl
@[simp] theorem State.writeXmm_pc (s : State) (d : VecReg) (v : BitVec 128) : (s.writeXmm d v).pc = s.pc := rfl
@[simp] theorem State.writeXmm_eflags (s : State) (d : VecReg) (v : BitVec 128) : (s.writeXmm d v).eflags = s.eflags := rfl
@[simp] theorem State.writeXmm_mxcsr (s : State) (d : VecReg) (v : BitVec 128) : (s.writeXmm d v).mxcsr = s.mxcsr := rfl
@[simp] theorem State.writeXmm_cr0 (s : State) (d : VecReg) (v : BitVec 128) : (s.writeXmm d v).cr0 = s.cr0 := rfl
@[simp] theorem State.writeXmm_cr2 (s : State) (d : VecReg) (v : BitVec 128) : (s.writeXmm d v).cr2 = s.cr2 := rfl
@[simp] theorem State.writeXmm_cr4 (s : State) (d : VecReg) (v : BitVec 128) : (s.writeXmm d v).cr4 = s.cr4 := rfl
@[simp] theorem State.writeXmm_xcr0 (s : State) (d : VecReg) (v : BitVec 128) : (s.writeXmm d v).xcr0 = s.xcr0 := rfl
@[simp] theorem State.writeXmm_cpl (s : State) (d : VecReg) (v : BitVec 128) : (s.writeXmm d v).cpl = s.cpl := rfl
@[simp] theorem State.writeXmm_csBase (s : State) (d : VecReg) (v : BitVec 128) : (s.writeXmm d v).csBase = s.csBase := rfl
@[simp] theorem State.writeXmm_fsBase (s : State) (d : VecReg) (v : BitVec 128) : (s.writeXmm d v).fsBase = s.fsBase := rfl
@[simp] theorem State.writeXmm_gsBase (s : State) (d : VecReg) (v : BitVec 128) : (s.writeXmm d v).gsBase = s.gsBase := rfl
@[simp] theorem State.writeXmm_mode (s : State) (d : VecReg) (v : BitVec 128) : (s.writeXmm d v).mode = s.mode := rfl
@[simp] theorem State.writeXmm_params (s : State) (d : VecReg) (v : BitVec 128) : (s.writeXmm d v).params = s.params := rfl
@[simp] theorem State.writeXmm_mem (s : State) (d : VecReg) (v : BitVec 128) : (s.writeXmm d v).mem = s.mem := rfl
@[simp] theorem State.writeXmm_fetchMap (s : State) (d : VecReg) (v : BitVec 128) : (s.writeXmm d v).fetchMap = s.fetchMap := rfl
@[simp] theorem State.writeXmm_loadMap (s : State) (d : VecReg) (v : BitVec 128) : (s.writeXmm d v).loadMap = s.loadMap := rfl
@[simp] theorem State.writeXmm_choices (s : State) (d : VecReg) (v : BitVec 128) : (s.writeXmm d v).choices = s.choices := rfl

/-! ### State.writeXmmLow (R22 (a), R221) -/

@[simp] theorem State.writeXmmLow_ymm (s : State) (d : VecReg) (v : BitVec 64) : (s.writeXmmLow d v).ymm = s.ymm.set d (s.ymm[d].extractLsb' 64 192 ++ v) := rfl
@[simp] theorem State.writeXmmLow_x87 (s : State) (d : VecReg) (v : BitVec 64) : (s.writeXmmLow d v).x87 = s.x87 := rfl
@[simp] theorem State.writeXmmLow_x87Top (s : State) (d : VecReg) (v : BitVec 64) : (s.writeXmmLow d v).x87Top = s.x87Top := rfl
@[simp] theorem State.writeXmmLow_x87Tag (s : State) (d : VecReg) (v : BitVec 64) : (s.writeXmmLow d v).x87Tag = s.x87Tag := rfl
@[simp] theorem State.writeXmmLow_x87Pending (s : State) (d : VecReg) (v : BitVec 64) : (s.writeXmmLow d v).x87Pending = s.x87Pending := rfl
@[simp] theorem State.writeXmmLow_gpr (s : State) (d : VecReg) (v : BitVec 64) : (s.writeXmmLow d v).gpr = s.gpr := rfl
@[simp] theorem State.writeXmmLow_pc (s : State) (d : VecReg) (v : BitVec 64) : (s.writeXmmLow d v).pc = s.pc := rfl
@[simp] theorem State.writeXmmLow_eflags (s : State) (d : VecReg) (v : BitVec 64) : (s.writeXmmLow d v).eflags = s.eflags := rfl
@[simp] theorem State.writeXmmLow_mxcsr (s : State) (d : VecReg) (v : BitVec 64) : (s.writeXmmLow d v).mxcsr = s.mxcsr := rfl
@[simp] theorem State.writeXmmLow_cr0 (s : State) (d : VecReg) (v : BitVec 64) : (s.writeXmmLow d v).cr0 = s.cr0 := rfl
@[simp] theorem State.writeXmmLow_cr2 (s : State) (d : VecReg) (v : BitVec 64) : (s.writeXmmLow d v).cr2 = s.cr2 := rfl
@[simp] theorem State.writeXmmLow_cr4 (s : State) (d : VecReg) (v : BitVec 64) : (s.writeXmmLow d v).cr4 = s.cr4 := rfl
@[simp] theorem State.writeXmmLow_xcr0 (s : State) (d : VecReg) (v : BitVec 64) : (s.writeXmmLow d v).xcr0 = s.xcr0 := rfl
@[simp] theorem State.writeXmmLow_cpl (s : State) (d : VecReg) (v : BitVec 64) : (s.writeXmmLow d v).cpl = s.cpl := rfl
@[simp] theorem State.writeXmmLow_csBase (s : State) (d : VecReg) (v : BitVec 64) : (s.writeXmmLow d v).csBase = s.csBase := rfl
@[simp] theorem State.writeXmmLow_fsBase (s : State) (d : VecReg) (v : BitVec 64) : (s.writeXmmLow d v).fsBase = s.fsBase := rfl
@[simp] theorem State.writeXmmLow_gsBase (s : State) (d : VecReg) (v : BitVec 64) : (s.writeXmmLow d v).gsBase = s.gsBase := rfl
@[simp] theorem State.writeXmmLow_mode (s : State) (d : VecReg) (v : BitVec 64) : (s.writeXmmLow d v).mode = s.mode := rfl
@[simp] theorem State.writeXmmLow_params (s : State) (d : VecReg) (v : BitVec 64) : (s.writeXmmLow d v).params = s.params := rfl
@[simp] theorem State.writeXmmLow_mem (s : State) (d : VecReg) (v : BitVec 64) : (s.writeXmmLow d v).mem = s.mem := rfl
@[simp] theorem State.writeXmmLow_fetchMap (s : State) (d : VecReg) (v : BitVec 64) : (s.writeXmmLow d v).fetchMap = s.fetchMap := rfl
@[simp] theorem State.writeXmmLow_loadMap (s : State) (d : VecReg) (v : BitVec 64) : (s.writeXmmLow d v).loadMap = s.loadMap := rfl
@[simp] theorem State.writeXmmLow_choices (s : State) (d : VecReg) (v : BitVec 64) : (s.writeXmmLow d v).choices = s.choices := rfl

/-! ### State.writeMm (R25) -/

@[simp] theorem State.writeMm_ymm (s : State) (d : MmxReg) (v : BitVec 64) : (s.writeMm d v).ymm = s.ymm := rfl
@[simp] theorem State.writeMm_x87 (s : State) (d : MmxReg) (v : BitVec 64) : (s.writeMm d v).x87 = s.x87.set d (BitVec.allOnes 16 ++ v) := rfl
@[simp] theorem State.writeMm_x87Top (s : State) (d : MmxReg) (v : BitVec 64) : (s.writeMm d v).x87Top = s.x87Top := rfl
@[simp] theorem State.writeMm_x87Tag (s : State) (d : MmxReg) (v : BitVec 64) : (s.writeMm d v).x87Tag = s.x87Tag := rfl
@[simp] theorem State.writeMm_x87Pending (s : State) (d : MmxReg) (v : BitVec 64) : (s.writeMm d v).x87Pending = s.x87Pending := rfl
@[simp] theorem State.writeMm_gpr (s : State) (d : MmxReg) (v : BitVec 64) : (s.writeMm d v).gpr = s.gpr := rfl
@[simp] theorem State.writeMm_pc (s : State) (d : MmxReg) (v : BitVec 64) : (s.writeMm d v).pc = s.pc := rfl
@[simp] theorem State.writeMm_eflags (s : State) (d : MmxReg) (v : BitVec 64) : (s.writeMm d v).eflags = s.eflags := rfl
@[simp] theorem State.writeMm_mxcsr (s : State) (d : MmxReg) (v : BitVec 64) : (s.writeMm d v).mxcsr = s.mxcsr := rfl
@[simp] theorem State.writeMm_cr0 (s : State) (d : MmxReg) (v : BitVec 64) : (s.writeMm d v).cr0 = s.cr0 := rfl
@[simp] theorem State.writeMm_cr2 (s : State) (d : MmxReg) (v : BitVec 64) : (s.writeMm d v).cr2 = s.cr2 := rfl
@[simp] theorem State.writeMm_cr4 (s : State) (d : MmxReg) (v : BitVec 64) : (s.writeMm d v).cr4 = s.cr4 := rfl
@[simp] theorem State.writeMm_xcr0 (s : State) (d : MmxReg) (v : BitVec 64) : (s.writeMm d v).xcr0 = s.xcr0 := rfl
@[simp] theorem State.writeMm_cpl (s : State) (d : MmxReg) (v : BitVec 64) : (s.writeMm d v).cpl = s.cpl := rfl
@[simp] theorem State.writeMm_csBase (s : State) (d : MmxReg) (v : BitVec 64) : (s.writeMm d v).csBase = s.csBase := rfl
@[simp] theorem State.writeMm_fsBase (s : State) (d : MmxReg) (v : BitVec 64) : (s.writeMm d v).fsBase = s.fsBase := rfl
@[simp] theorem State.writeMm_gsBase (s : State) (d : MmxReg) (v : BitVec 64) : (s.writeMm d v).gsBase = s.gsBase := rfl
@[simp] theorem State.writeMm_mode (s : State) (d : MmxReg) (v : BitVec 64) : (s.writeMm d v).mode = s.mode := rfl
@[simp] theorem State.writeMm_params (s : State) (d : MmxReg) (v : BitVec 64) : (s.writeMm d v).params = s.params := rfl
@[simp] theorem State.writeMm_mem (s : State) (d : MmxReg) (v : BitVec 64) : (s.writeMm d v).mem = s.mem := rfl
@[simp] theorem State.writeMm_fetchMap (s : State) (d : MmxReg) (v : BitVec 64) : (s.writeMm d v).fetchMap = s.fetchMap := rfl
@[simp] theorem State.writeMm_loadMap (s : State) (d : MmxReg) (v : BitVec 64) : (s.writeMm d v).loadMap = s.loadMap := rfl
@[simp] theorem State.writeMm_choices (s : State) (d : MmxReg) (v : BitVec 64) : (s.writeMm d v).choices = s.choices := rfl

/-! ### State.mmxTransition (R28) -/

@[simp] theorem State.mmxTransition_ymm (s : State) : (s.mmxTransition).ymm = s.ymm := rfl
@[simp] theorem State.mmxTransition_x87 (s : State) : (s.mmxTransition).x87 = s.x87 := rfl
@[simp] theorem State.mmxTransition_x87Top (s : State) : (s.mmxTransition).x87Top = 0 := rfl
@[simp] theorem State.mmxTransition_x87Tag (s : State) : (s.mmxTransition).x87Tag = 0 := rfl
@[simp] theorem State.mmxTransition_x87Pending (s : State) : (s.mmxTransition).x87Pending = s.x87Pending := rfl
@[simp] theorem State.mmxTransition_gpr (s : State) : (s.mmxTransition).gpr = s.gpr := rfl
@[simp] theorem State.mmxTransition_pc (s : State) : (s.mmxTransition).pc = s.pc := rfl
@[simp] theorem State.mmxTransition_eflags (s : State) : (s.mmxTransition).eflags = s.eflags := rfl
@[simp] theorem State.mmxTransition_mxcsr (s : State) : (s.mmxTransition).mxcsr = s.mxcsr := rfl
@[simp] theorem State.mmxTransition_cr0 (s : State) : (s.mmxTransition).cr0 = s.cr0 := rfl
@[simp] theorem State.mmxTransition_cr2 (s : State) : (s.mmxTransition).cr2 = s.cr2 := rfl
@[simp] theorem State.mmxTransition_cr4 (s : State) : (s.mmxTransition).cr4 = s.cr4 := rfl
@[simp] theorem State.mmxTransition_xcr0 (s : State) : (s.mmxTransition).xcr0 = s.xcr0 := rfl
@[simp] theorem State.mmxTransition_cpl (s : State) : (s.mmxTransition).cpl = s.cpl := rfl
@[simp] theorem State.mmxTransition_csBase (s : State) : (s.mmxTransition).csBase = s.csBase := rfl
@[simp] theorem State.mmxTransition_fsBase (s : State) : (s.mmxTransition).fsBase = s.fsBase := rfl
@[simp] theorem State.mmxTransition_gsBase (s : State) : (s.mmxTransition).gsBase = s.gsBase := rfl
@[simp] theorem State.mmxTransition_mode (s : State) : (s.mmxTransition).mode = s.mode := rfl
@[simp] theorem State.mmxTransition_params (s : State) : (s.mmxTransition).params = s.params := rfl
@[simp] theorem State.mmxTransition_mem (s : State) : (s.mmxTransition).mem = s.mem := rfl
@[simp] theorem State.mmxTransition_fetchMap (s : State) : (s.mmxTransition).fetchMap = s.fetchMap := rfl
@[simp] theorem State.mmxTransition_loadMap (s : State) : (s.mmxTransition).loadMap = s.loadMap := rfl
@[simp] theorem State.mmxTransition_choices (s : State) : (s.mmxTransition).choices = s.choices := rfl

/-! ### State.writeGpr64 (R31) -/

@[simp] theorem State.writeGpr64_ymm (s : State) (d : GenReg) (v : BitVec 64) : (s.writeGpr64 d v).ymm = s.ymm := rfl
@[simp] theorem State.writeGpr64_x87 (s : State) (d : GenReg) (v : BitVec 64) : (s.writeGpr64 d v).x87 = s.x87 := rfl
@[simp] theorem State.writeGpr64_x87Top (s : State) (d : GenReg) (v : BitVec 64) : (s.writeGpr64 d v).x87Top = s.x87Top := rfl
@[simp] theorem State.writeGpr64_x87Tag (s : State) (d : GenReg) (v : BitVec 64) : (s.writeGpr64 d v).x87Tag = s.x87Tag := rfl
@[simp] theorem State.writeGpr64_x87Pending (s : State) (d : GenReg) (v : BitVec 64) : (s.writeGpr64 d v).x87Pending = s.x87Pending := rfl
@[simp] theorem State.writeGpr64_gpr (s : State) (d : GenReg) (v : BitVec 64) : (s.writeGpr64 d v).gpr = s.gpr.set d v := rfl
@[simp] theorem State.writeGpr64_pc (s : State) (d : GenReg) (v : BitVec 64) : (s.writeGpr64 d v).pc = s.pc := rfl
@[simp] theorem State.writeGpr64_eflags (s : State) (d : GenReg) (v : BitVec 64) : (s.writeGpr64 d v).eflags = s.eflags := rfl
@[simp] theorem State.writeGpr64_mxcsr (s : State) (d : GenReg) (v : BitVec 64) : (s.writeGpr64 d v).mxcsr = s.mxcsr := rfl
@[simp] theorem State.writeGpr64_cr0 (s : State) (d : GenReg) (v : BitVec 64) : (s.writeGpr64 d v).cr0 = s.cr0 := rfl
@[simp] theorem State.writeGpr64_cr2 (s : State) (d : GenReg) (v : BitVec 64) : (s.writeGpr64 d v).cr2 = s.cr2 := rfl
@[simp] theorem State.writeGpr64_cr4 (s : State) (d : GenReg) (v : BitVec 64) : (s.writeGpr64 d v).cr4 = s.cr4 := rfl
@[simp] theorem State.writeGpr64_xcr0 (s : State) (d : GenReg) (v : BitVec 64) : (s.writeGpr64 d v).xcr0 = s.xcr0 := rfl
@[simp] theorem State.writeGpr64_cpl (s : State) (d : GenReg) (v : BitVec 64) : (s.writeGpr64 d v).cpl = s.cpl := rfl
@[simp] theorem State.writeGpr64_csBase (s : State) (d : GenReg) (v : BitVec 64) : (s.writeGpr64 d v).csBase = s.csBase := rfl
@[simp] theorem State.writeGpr64_fsBase (s : State) (d : GenReg) (v : BitVec 64) : (s.writeGpr64 d v).fsBase = s.fsBase := rfl
@[simp] theorem State.writeGpr64_gsBase (s : State) (d : GenReg) (v : BitVec 64) : (s.writeGpr64 d v).gsBase = s.gsBase := rfl
@[simp] theorem State.writeGpr64_mode (s : State) (d : GenReg) (v : BitVec 64) : (s.writeGpr64 d v).mode = s.mode := rfl
@[simp] theorem State.writeGpr64_params (s : State) (d : GenReg) (v : BitVec 64) : (s.writeGpr64 d v).params = s.params := rfl
@[simp] theorem State.writeGpr64_mem (s : State) (d : GenReg) (v : BitVec 64) : (s.writeGpr64 d v).mem = s.mem := rfl
@[simp] theorem State.writeGpr64_fetchMap (s : State) (d : GenReg) (v : BitVec 64) : (s.writeGpr64 d v).fetchMap = s.fetchMap := rfl
@[simp] theorem State.writeGpr64_loadMap (s : State) (d : GenReg) (v : BitVec 64) : (s.writeGpr64 d v).loadMap = s.loadMap := rfl
@[simp] theorem State.writeGpr64_choices (s : State) (d : GenReg) (v : BitVec 64) : (s.writeGpr64 d v).choices = s.choices := rfl

/-! ### State.writeGpr32 (R31) -/

@[simp] theorem State.writeGpr32_ymm (s : State) (d : GenReg) (v : BitVec 32) : (s.writeGpr32 d v).ymm = s.ymm := rfl
@[simp] theorem State.writeGpr32_x87 (s : State) (d : GenReg) (v : BitVec 32) : (s.writeGpr32 d v).x87 = s.x87 := rfl
@[simp] theorem State.writeGpr32_x87Top (s : State) (d : GenReg) (v : BitVec 32) : (s.writeGpr32 d v).x87Top = s.x87Top := rfl
@[simp] theorem State.writeGpr32_x87Tag (s : State) (d : GenReg) (v : BitVec 32) : (s.writeGpr32 d v).x87Tag = s.x87Tag := rfl
@[simp] theorem State.writeGpr32_x87Pending (s : State) (d : GenReg) (v : BitVec 32) : (s.writeGpr32 d v).x87Pending = s.x87Pending := rfl
@[simp] theorem State.writeGpr32_gpr (s : State) (d : GenReg) (v : BitVec 32) : (s.writeGpr32 d v).gpr = s.gpr.set d (if s.mode64 then v.setWidth 64 else s.gpr[d].extractLsb' 32 32 ++ v) := rfl
@[simp] theorem State.writeGpr32_pc (s : State) (d : GenReg) (v : BitVec 32) : (s.writeGpr32 d v).pc = s.pc := rfl
@[simp] theorem State.writeGpr32_eflags (s : State) (d : GenReg) (v : BitVec 32) : (s.writeGpr32 d v).eflags = s.eflags := rfl
@[simp] theorem State.writeGpr32_mxcsr (s : State) (d : GenReg) (v : BitVec 32) : (s.writeGpr32 d v).mxcsr = s.mxcsr := rfl
@[simp] theorem State.writeGpr32_cr0 (s : State) (d : GenReg) (v : BitVec 32) : (s.writeGpr32 d v).cr0 = s.cr0 := rfl
@[simp] theorem State.writeGpr32_cr2 (s : State) (d : GenReg) (v : BitVec 32) : (s.writeGpr32 d v).cr2 = s.cr2 := rfl
@[simp] theorem State.writeGpr32_cr4 (s : State) (d : GenReg) (v : BitVec 32) : (s.writeGpr32 d v).cr4 = s.cr4 := rfl
@[simp] theorem State.writeGpr32_xcr0 (s : State) (d : GenReg) (v : BitVec 32) : (s.writeGpr32 d v).xcr0 = s.xcr0 := rfl
@[simp] theorem State.writeGpr32_cpl (s : State) (d : GenReg) (v : BitVec 32) : (s.writeGpr32 d v).cpl = s.cpl := rfl
@[simp] theorem State.writeGpr32_csBase (s : State) (d : GenReg) (v : BitVec 32) : (s.writeGpr32 d v).csBase = s.csBase := rfl
@[simp] theorem State.writeGpr32_fsBase (s : State) (d : GenReg) (v : BitVec 32) : (s.writeGpr32 d v).fsBase = s.fsBase := rfl
@[simp] theorem State.writeGpr32_gsBase (s : State) (d : GenReg) (v : BitVec 32) : (s.writeGpr32 d v).gsBase = s.gsBase := rfl
@[simp] theorem State.writeGpr32_mode (s : State) (d : GenReg) (v : BitVec 32) : (s.writeGpr32 d v).mode = s.mode := rfl
@[simp] theorem State.writeGpr32_params (s : State) (d : GenReg) (v : BitVec 32) : (s.writeGpr32 d v).params = s.params := rfl
@[simp] theorem State.writeGpr32_mem (s : State) (d : GenReg) (v : BitVec 32) : (s.writeGpr32 d v).mem = s.mem := rfl
@[simp] theorem State.writeGpr32_fetchMap (s : State) (d : GenReg) (v : BitVec 32) : (s.writeGpr32 d v).fetchMap = s.fetchMap := rfl
@[simp] theorem State.writeGpr32_loadMap (s : State) (d : GenReg) (v : BitVec 32) : (s.writeGpr32 d v).loadMap = s.loadMap := rfl
@[simp] theorem State.writeGpr32_choices (s : State) (d : GenReg) (v : BitVec 32) : (s.writeGpr32 d v).choices = s.choices := rfl

/-! ### State.raiseFlags (R171) -/

@[simp] theorem State.raiseFlags_ymm (s : State) (f : FpFlags) : (s.raiseFlags f).ymm = s.ymm := rfl
@[simp] theorem State.raiseFlags_x87 (s : State) (f : FpFlags) : (s.raiseFlags f).x87 = s.x87 := rfl
@[simp] theorem State.raiseFlags_x87Top (s : State) (f : FpFlags) : (s.raiseFlags f).x87Top = s.x87Top := rfl
@[simp] theorem State.raiseFlags_x87Tag (s : State) (f : FpFlags) : (s.raiseFlags f).x87Tag = s.x87Tag := rfl
@[simp] theorem State.raiseFlags_x87Pending (s : State) (f : FpFlags) : (s.raiseFlags f).x87Pending = s.x87Pending := rfl
@[simp] theorem State.raiseFlags_gpr (s : State) (f : FpFlags) : (s.raiseFlags f).gpr = s.gpr := rfl
@[simp] theorem State.raiseFlags_pc (s : State) (f : FpFlags) : (s.raiseFlags f).pc = s.pc := rfl
@[simp] theorem State.raiseFlags_eflags (s : State) (f : FpFlags) : (s.raiseFlags f).eflags = s.eflags := rfl
@[simp] theorem State.raiseFlags_mxcsr (s : State) (f : FpFlags) : (s.raiseFlags f).mxcsr = s.mxcsr ||| f.bits.setWidth 32 := rfl
@[simp] theorem State.raiseFlags_cr0 (s : State) (f : FpFlags) : (s.raiseFlags f).cr0 = s.cr0 := rfl
@[simp] theorem State.raiseFlags_cr2 (s : State) (f : FpFlags) : (s.raiseFlags f).cr2 = s.cr2 := rfl
@[simp] theorem State.raiseFlags_cr4 (s : State) (f : FpFlags) : (s.raiseFlags f).cr4 = s.cr4 := rfl
@[simp] theorem State.raiseFlags_xcr0 (s : State) (f : FpFlags) : (s.raiseFlags f).xcr0 = s.xcr0 := rfl
@[simp] theorem State.raiseFlags_cpl (s : State) (f : FpFlags) : (s.raiseFlags f).cpl = s.cpl := rfl
@[simp] theorem State.raiseFlags_csBase (s : State) (f : FpFlags) : (s.raiseFlags f).csBase = s.csBase := rfl
@[simp] theorem State.raiseFlags_fsBase (s : State) (f : FpFlags) : (s.raiseFlags f).fsBase = s.fsBase := rfl
@[simp] theorem State.raiseFlags_gsBase (s : State) (f : FpFlags) : (s.raiseFlags f).gsBase = s.gsBase := rfl
@[simp] theorem State.raiseFlags_mode (s : State) (f : FpFlags) : (s.raiseFlags f).mode = s.mode := rfl
@[simp] theorem State.raiseFlags_params (s : State) (f : FpFlags) : (s.raiseFlags f).params = s.params := rfl
@[simp] theorem State.raiseFlags_mem (s : State) (f : FpFlags) : (s.raiseFlags f).mem = s.mem := rfl
@[simp] theorem State.raiseFlags_fetchMap (s : State) (f : FpFlags) : (s.raiseFlags f).fetchMap = s.fetchMap := rfl
@[simp] theorem State.raiseFlags_loadMap (s : State) (f : FpFlags) : (s.raiseFlags f).loadMap = s.loadMap := rfl
@[simp] theorem State.raiseFlags_choices (s : State) (f : FpFlags) : (s.raiseFlags f).choices = s.choices := rfl

/-! ### State.retire (R34) -/

@[simp] theorem State.retire_ymm (s : State) (n : Nat) : (s.retire n).ymm = s.ymm := rfl
@[simp] theorem State.retire_x87 (s : State) (n : Nat) : (s.retire n).x87 = s.x87 := rfl
@[simp] theorem State.retire_x87Top (s : State) (n : Nat) : (s.retire n).x87Top = s.x87Top := rfl
@[simp] theorem State.retire_x87Tag (s : State) (n : Nat) : (s.retire n).x87Tag = s.x87Tag := rfl
@[simp] theorem State.retire_x87Pending (s : State) (n : Nat) : (s.retire n).x87Pending = s.x87Pending := rfl
@[simp] theorem State.retire_gpr (s : State) (n : Nat) : (s.retire n).gpr = s.gpr := rfl
@[simp] theorem State.retire_pc (s : State) (n : Nat) : (s.retire n).pc = s.nextPc n := rfl
@[simp] theorem State.retire_eflags (s : State) (n : Nat) : (s.retire n).eflags = s.eflags := rfl
@[simp] theorem State.retire_mxcsr (s : State) (n : Nat) : (s.retire n).mxcsr = s.mxcsr := rfl
@[simp] theorem State.retire_cr0 (s : State) (n : Nat) : (s.retire n).cr0 = s.cr0 := rfl
@[simp] theorem State.retire_cr2 (s : State) (n : Nat) : (s.retire n).cr2 = s.cr2 := rfl
@[simp] theorem State.retire_cr4 (s : State) (n : Nat) : (s.retire n).cr4 = s.cr4 := rfl
@[simp] theorem State.retire_xcr0 (s : State) (n : Nat) : (s.retire n).xcr0 = s.xcr0 := rfl
@[simp] theorem State.retire_cpl (s : State) (n : Nat) : (s.retire n).cpl = s.cpl := rfl
@[simp] theorem State.retire_csBase (s : State) (n : Nat) : (s.retire n).csBase = s.csBase := rfl
@[simp] theorem State.retire_fsBase (s : State) (n : Nat) : (s.retire n).fsBase = s.fsBase := rfl
@[simp] theorem State.retire_gsBase (s : State) (n : Nat) : (s.retire n).gsBase = s.gsBase := rfl
@[simp] theorem State.retire_mode (s : State) (n : Nat) : (s.retire n).mode = s.mode := rfl
@[simp] theorem State.retire_params (s : State) (n : Nat) : (s.retire n).params = s.params := rfl
@[simp] theorem State.retire_mem (s : State) (n : Nat) : (s.retire n).mem = s.mem := rfl
@[simp] theorem State.retire_fetchMap (s : State) (n : Nat) : (s.retire n).fetchMap = s.fetchMap := rfl
@[simp] theorem State.retire_loadMap (s : State) (n : Nat) : (s.retire n).loadMap = s.loadMap := rfl
@[simp] theorem State.retire_choices (s : State) (n : Nat) : (s.retire n).choices = s.choices + 1 := rfl

/-! ### placeText (R302) -/

@[simp] theorem placeText_ymm (s : State) (l : List Byte) : (placeText s l).ymm = s.ymm := rfl
@[simp] theorem placeText_x87 (s : State) (l : List Byte) : (placeText s l).x87 = s.x87 := rfl
@[simp] theorem placeText_x87Top (s : State) (l : List Byte) : (placeText s l).x87Top = s.x87Top := rfl
@[simp] theorem placeText_x87Tag (s : State) (l : List Byte) : (placeText s l).x87Tag = s.x87Tag := rfl
@[simp] theorem placeText_x87Pending (s : State) (l : List Byte) : (placeText s l).x87Pending = s.x87Pending := rfl
@[simp] theorem placeText_gpr (s : State) (l : List Byte) : (placeText s l).gpr = s.gpr := rfl
@[simp] theorem placeText_pc (s : State) (l : List Byte) : (placeText s l).pc = s.pc := rfl
@[simp] theorem placeText_eflags (s : State) (l : List Byte) : (placeText s l).eflags = s.eflags := rfl
@[simp] theorem placeText_mxcsr (s : State) (l : List Byte) : (placeText s l).mxcsr = s.mxcsr := rfl
@[simp] theorem placeText_cr0 (s : State) (l : List Byte) : (placeText s l).cr0 = s.cr0 := rfl
@[simp] theorem placeText_cr2 (s : State) (l : List Byte) : (placeText s l).cr2 = s.cr2 := rfl
@[simp] theorem placeText_cr4 (s : State) (l : List Byte) : (placeText s l).cr4 = s.cr4 := rfl
@[simp] theorem placeText_xcr0 (s : State) (l : List Byte) : (placeText s l).xcr0 = s.xcr0 := rfl
@[simp] theorem placeText_cpl (s : State) (l : List Byte) : (placeText s l).cpl = s.cpl := rfl
@[simp] theorem placeText_csBase (s : State) (l : List Byte) : (placeText s l).csBase = s.csBase := rfl
@[simp] theorem placeText_fsBase (s : State) (l : List Byte) : (placeText s l).fsBase = s.fsBase := rfl
@[simp] theorem placeText_gsBase (s : State) (l : List Byte) : (placeText s l).gsBase = s.gsBase := rfl
@[simp] theorem placeText_mode (s : State) (l : List Byte) : (placeText s l).mode = s.mode := rfl
@[simp] theorem placeText_params (s : State) (l : List Byte) : (placeText s l).params = s.params := rfl
@[simp] theorem placeText_mem (s : State) (l : List Byte) : (placeText s l).mem = s.mem.writeBytes s.pc l := rfl
@[simp] theorem placeText_fetchMap (s : State) (l : List Byte) : (placeText s l).fetchMap = [{ base := s.pc.toNat, size := l.length, answer := .granted }] := rfl
@[simp] theorem placeText_loadMap (s : State) (l : List Byte) : (placeText s l).loadMap = s.loadMap := rfl
@[simp] theorem placeText_choices (s : State) (l : List Byte) : (placeText s l).choices = s.choices := rfl

/-! ### initReset (R305) -/

@[simp] theorem initReset_ymm (s : State) : (initReset s).ymm = s.ymm := rfl
@[simp] theorem initReset_x87 (s : State) : (initReset s).x87 = s.x87 := rfl
@[simp] theorem initReset_x87Top (s : State) : (initReset s).x87Top = s.x87Top := rfl
@[simp] theorem initReset_x87Tag (s : State) : (initReset s).x87Tag = s.x87Tag := rfl
@[simp] theorem initReset_x87Pending (s : State) : (initReset s).x87Pending = s.x87Pending := rfl
@[simp] theorem initReset_gpr (s : State) : (initReset s).gpr = State.reset.gpr := rfl
@[simp] theorem initReset_pc (s : State) : (initReset s).pc = State.reset.pc := rfl
@[simp] theorem initReset_eflags (s : State) : (initReset s).eflags = State.reset.eflags := rfl
@[simp] theorem initReset_mxcsr (s : State) : (initReset s).mxcsr = s.mxcsr := rfl
@[simp] theorem initReset_cr0 (s : State) : (initReset s).cr0 = State.reset.cr0 := rfl
@[simp] theorem initReset_cr2 (s : State) : (initReset s).cr2 = State.reset.cr2 := rfl
@[simp] theorem initReset_cr4 (s : State) : (initReset s).cr4 = State.reset.cr4 := rfl
@[simp] theorem initReset_xcr0 (s : State) : (initReset s).xcr0 = State.reset.xcr0 := rfl
@[simp] theorem initReset_cpl (s : State) : (initReset s).cpl = State.reset.cpl := rfl
@[simp] theorem initReset_csBase (s : State) : (initReset s).csBase = State.reset.csBase := rfl
@[simp] theorem initReset_fsBase (s : State) : (initReset s).fsBase = State.reset.fsBase := rfl
@[simp] theorem initReset_gsBase (s : State) : (initReset s).gsBase = State.reset.gsBase := rfl
@[simp] theorem initReset_mode (s : State) : (initReset s).mode = State.reset.mode := rfl
@[simp] theorem initReset_params (s : State) : (initReset s).params = s.params := rfl
@[simp] theorem initReset_mem (s : State) : (initReset s).mem = s.mem := rfl
@[simp] theorem initReset_fetchMap (s : State) : (initReset s).fetchMap = s.fetchMap := rfl
@[simp] theorem initReset_loadMap (s : State) : (initReset s).loadMap = s.loadMap := rfl
@[simp] theorem initReset_choices (s : State) : (initReset s).choices = s.choices := rfl

end Sys2Proof.Machine
end

