-- ==== Sys2Proof/Laws/Ops.lean ====
section
/-! SUPPORT. What each shared operation can do, said once: the admission checks, the SIMD check, the lanes, and
`runConversion`. -/

namespace Sys2Proof.Machine

@[simp] theorem Stop.out_fault (f : Fault) : (Stop.fault f).out = .fault f := rfl
@[simp] theorem Stop.out_refuse (r : Refusal) : (Stop.refuse r).out = .refused r := rfl

/-- A stop is never a next state. -/
theorem Stop.out_ne_next (x : Stop) (t : State) : x.out ≠ .next t := by
  cases x <;> simp

/-! ### Fields under the updates -/

@[simp] theorem State.mode64_raiseFlags (s : State) (f : FpFlags) : (s.raiseFlags f).mode64 = s.mode64 := rfl
@[simp] theorem State.nextPc_raiseFlags (s : State) (f : FpFlags) (n : Nat) : (s.raiseFlags f).nextPc n = s.nextPc n := rfl
@[simp] theorem State.mode64_writeYmm (s : State) (d : VecReg) (v : BitVec 256) : (s.writeYmm d v).mode64 = s.mode64 := rfl
@[simp] theorem State.nextPc_writeYmm (s : State) (d : VecReg) (v : BitVec 256) (n : Nat) :
    (s.writeYmm d v).nextPc n = s.nextPc n := rfl
@[simp] theorem State.nextPc_writeXmm (s : State) (d : VecReg) (v : BitVec 128) (n : Nat) :
    (s.writeXmm d v).nextPc n = s.nextPc n := rfl
@[simp] theorem State.nextPc_writeXmmLow (s : State) (d : VecReg) (v : BitVec 64) (n : Nat) :
    (s.writeXmmLow d v).nextPc n = s.nextPc n := rfl
@[simp] theorem State.nextPc_writeMm (s : State) (d : MmxReg) (v : BitVec 64) (n : Nat) :
    (s.writeMm d v).nextPc n = s.nextPc n := rfl
@[simp] theorem State.nextPc_mmxTransition (s : State) (n : Nat) : s.mmxTransition.nextPc n = s.nextPc n := rfl
@[simp] theorem State.nextPc_writeGpr64 (s : State) (d : GenReg) (v : BitVec 64) (n : Nat) :
    (s.writeGpr64 d v).nextPc n = s.nextPc n := rfl
@[simp] theorem State.nextPc_writeGpr32 (s : State) (d : GenReg) (v : BitVec 32) (n : Nat) :
    (s.writeGpr32 d v).nextPc n = s.nextPc n := rfl

/-- Raising no flag changes nothing: the exact conversions leave MXCSR alone (R41). -/
@[simp] theorem State.raiseFlags_none (s : State) : s.raiseFlags .none = s := by
  have h : FpFlags.none.bits.setWidth 32 = 0#32 := by decide
  simp [State.raiseFlags, h]

/-! ### Admission -/

theorem Mode.modelled_iff (m : Mode) : m.modelled = true ↔ m = .bits64 ∨ m = .bits32 := by
  cases m <;> simp [Mode.modelled]

/-- A legacy form is admitted exactly when it is ready. -/
theorem State.admitLegacy_eq_none_iff (s : State) (feature : Bool) :
    s.admitLegacy feature = none ↔ LegacyReady s feature := by
  have hm := Mode.modelled_iff s.mode
  unfold State.admitLegacy
  constructor
  · intro h
    split at h
    · cases h
    · split at h
      · cases h
      · split at h
        · cases h
        · simp_all only [Bool.or_eq_true, Bool.not_eq_true', not_or, Bool.not_eq_true, Bool.not_eq_false]
          exact ⟨by simp_all, by simp_all, by simp_all, by simp_all, by simp_all⟩
  · rintro ⟨h1, h2, h3, h4, h5⟩
    have := hm.2 h4
    simp [*]

theorem State.avxEnabled_iff (s : State) : s.avxEnabled = true ↔ s.xcr0.extractLsb' 1 2 = 3 := by
  unfold State.avxEnabled
  constructor
  · intro h
    rw [Bool.and_eq_true] at h
    apply BitVec.eq_of_getLsbD_eq
    intro i hi
    rcases i with _ | _ | i
    · simp [h.1]
    · simp [h.2]
    · omega
  · intro h
    have h0 : (s.xcr0.extractLsb' 1 2).getLsbD 0 = true := by rw [h]; rfl
    have h1 : (s.xcr0.extractLsb' 1 2).getLsbD 1 = true := by rw [h]; rfl
    simp only [BitVec.getLsbD_extractLsb'] at h0 h1
    simp_all

/-- A VEX form is admitted exactly when it is ready. -/
theorem State.admitVex_eq_none_iff (s : State) : s.admitVex = none ↔ VexReady s := by
  have hm := Mode.modelled_iff s.mode
  have ha := s.avxEnabled_iff
  unfold State.admitVex
  constructor
  · intro h
    split at h
    · cases h
    · split at h
      · cases h
      · split at h
        · cases h
        · simp_all only [Bool.or_eq_true, Bool.not_eq_true', not_or, Bool.not_eq_true, Bool.not_eq_false]
          exact ⟨by simp_all, by simp_all, by simp_all, by simp_all, by simp_all⟩
  · rintro ⟨h1, h2, h3, h4, h5⟩
    have := hm.2 h4
    have := ha.2 h2
    have hu : s.mode.unprotected = false := by rcases h4 with h | h <;> rw [h] <;> rfl
    simp [*]

/-- A form with an MMX operand is admitted exactly when it is ready and no x87 exception that it takes is pending. -/
theorem State.admitMmx_eq_none_iff (s : State) (feature transition : Bool) :
    s.admitMmx feature transition = none ↔
      LegacyReady s feature ∧ (transition = true → s.x87Pending = false) := by
  rw [← State.admitLegacy_eq_none_iff]
  unfold State.admitMmx
  cases h : s.admitLegacy feature with
  | some x => simp
  | none => cases transition <;> cases s.x87Pending <;> simp

theorem unmasked_bits (f : FpFlags) (m : BitVec 6) :
    f.bits &&& ~~~m = 0 ↔
      (f.invalid = true → m.getLsbD 0 = true) ∧ (f.denormal = true → m.getLsbD 1 = true) ∧
      (f.overflow = true → m.getLsbD 3 = true) ∧ (f.underflow = true → m.getLsbD 4 = true) ∧
      (f.precision = true → m.getLsbD 5 = true) := by
  obtain ⟨i, d, o, u, p⟩ := f
  revert m
  cases i <;> cases d <;> cases o <;> cases u <;> cases p <;> decide

/-- No SIMD fault exactly when every raised flag is masked (R171, R172). -/
theorem State.simdStop_eq_none_iff (s : State) (f : FpFlags) : s.simdStop f = none ↔ Masked s f := by
  have h := unmasked_bits f s.fpMasks
  simp only [State.fpMasks, BitVec.getLsbD_extractLsb'] at h
  unfold State.simdStop State.unmasked State.fpMasks
  constructor
  · intro hs
    split at hs
    · cases hs
    · rename_i hn
      simp only [decide_eq_true_eq, not_not] at hn
      obtain ⟨a, b, c, d, e⟩ := h.1 hn
      exact ⟨by simpa using a, by simpa using b, by simpa using c, by simpa using d, by simpa using e⟩
  · rintro ⟨a, b, c, d, e⟩
    have := h.2 ⟨by simpa using a, by simpa using b, by simpa using c, by simpa using d, by simpa using e⟩
    simp [this]

/-! ### Lanes -/

theorem unionFlags_nil {b : Nat} : unionFlags ([] : List (Conv b)) = .none := rfl

@[simp] theorem unionFlags_cons {b : Nat} (c : Conv b) (t : List (Conv b)) :
    unionFlags (c :: t) = c.flags.union (unionFlags t) := rfl

@[simp] theorem FpFlags.union_none (f : FpFlags) : f.union .none = f := by
  cases f; simp [FpFlags.union, FpFlags.none]

/-- Narrowing a packed result drops the high bits only. -/
theorem setWidth_packLanes {b m n : Nat} (h : m ≤ n) (l : List (Conv b)) :
    (packLanes n l).setWidth m = packLanes m l := by
  induction l with
  | nil => simp [packLanes]
  | cons c t ih =>
    apply BitVec.eq_of_getLsbD_eq
    intro i hi
    have hin : i < n := by omega
    have hget : ∀ j, j < m → (packLanes n t).getLsbD j = (packLanes m t).getLsbD j := by
      intro j hj
      rw [← ih]
      simp [hj]
    simp only [packLanes, BitVec.getLsbD_setWidth, hi, hin, decide_true, Bool.true_and, BitVec.getLsbD_or,
      BitVec.getLsbD_shiftLeft]
    by_cases hb : i < b
    · simp [hb]
    · simp [hb, hget (i - b) (by omega)]

/-- The first result is the lowest element. -/
theorem packLanes_cons {b m : Nat} (c : Conv b) (t : List (Conv b)) :
    packLanes (m + b) (c :: t) = packLanes m t ++ c.value := by
  apply BitVec.eq_of_getLsbD_eq
  intro i hi
  simp only [packLanes, BitVec.getLsbD_or, BitVec.getLsbD_shiftLeft, BitVec.getLsbD_setWidth, BitVec.getLsbD_append,
    hi, decide_true, Bool.true_and]
  by_cases hb : i < b
  · simp [hb]
  · have h : (packLanes (m + b) t).getLsbD (i - b) = (packLanes m t).getLsbD (i - b) := by
      rw [← setWidth_packLanes (Nat.le_add_right m b) t]
      simp [show i - b < m by omega]
    simp [hb, h, BitVec.getLsbD_of_ge c.value i (by omega)]

@[simp] theorem packLanes_nil {b m : Nat} : packLanes m ([] : List (Conv b)) = 0#m := rfl

@[simp] theorem convLanes_one {a b w : Nat} (f : BitVec a → Conv b) (v : BitVec w) :
    convLanes 1 f v = [f (lane a 0 v)] := rfl

@[simp] theorem convLanes_two {a b w : Nat} (f : BitVec a → Conv b) (v : BitVec w) :
    convLanes 2 f v = [f (lane a 0 v), f (lane a 1 v)] := rfl

@[simp] theorem convLanes_four {a b w : Nat} (f : BitVec a → Conv b) (v : BitVec w) :
    convLanes 4 f v = [f (lane a 0 v), f (lane a 1 v), f (lane a 2 v), f (lane a 3 v)] := rfl

@[simp] theorem convLanes_eight {a b w : Nat} (f : BitVec a → Conv b) (v : BitVec w) :
    convLanes 8 f v = [f (lane a 0 v), f (lane a 1 v), f (lane a 2 v), f (lane a 3 v), f (lane a 4 v), f (lane a 5 v),
      f (lane a 6 v), f (lane a 7 v)] := rfl

/-! ### The execution skeleton -/

/-- `runConversion` gives a next state exactly when the form is admitted, its source is read and no raised flag is unmasked;
this is everything it then does. -/
theorem runConversion_eq_next_iff {b w : Nat} {check : Option Stop} {source : Except Stop (BitVec w)}
    {convert : BitVec w → List (Conv b)} {write : State → List (Conv b) → State} {len : Nat} {s t : State} :
    runConversion check source convert write len s = .next t ↔
      check = none ∧ ∃ v, source = .ok v ∧ s.simdStop (unionFlags (convert v)) = none ∧
        t = (write (s.raiseFlags (unionFlags (convert v))) (convert v)).retire len := by
  unfold runConversion
  cases check with
  | some x => simp [Stop.out_ne_next]
  | none =>
    cases source with
    | error x => simp [Stop.out_ne_next]
    | ok v =>
      cases h : s.simdStop (unionFlags (convert v)) with
      | some x => simp [h, Stop.out_ne_next]
      | none => simp [h, eq_comm]

/-- A form that is not admitted stops with its admission stop, before its source is read (R263). -/
theorem runConversion_of_admit {b w : Nat} {check : Option Stop} {x : Stop} (h : check = some x)
    (source : Except Stop (BitVec w)) (convert : BitVec w → List (Conv b)) (write : State → List (Conv b) → State)
    (len : Nat) (s : State) : runConversion check source convert write len s = x.out := by
  subst h; rfl

/-- An admitted form whose source faults stops with that fault (R263). -/
theorem runConversion_of_source_error {b w : Nat} {x : Stop} (convert : BitVec w → List (Conv b))
    (write : State → List (Conv b) → State) (len : Nat) (s : State) :
    runConversion none (.error x : Except Stop (BitVec w)) convert write len s = x.out := rfl

/-- An admitted form whose source is read and whose conversion raises an unmasked flag stops with the SIMD fault (R172). -/
theorem runConversion_of_simdStop {b w : Nat} {v : BitVec w} {x : Stop} {convert : BitVec w → List (Conv b)} {s : State}
    (h : s.simdStop (unionFlags (convert v)) = some x) (write : State → List (Conv b) → State) (len : Nat) :
    runConversion none (.ok v) convert write len s = x.out := by
  simp [runConversion, h]

end Sys2Proof.Machine
end

