-- ==== Sys2Proof/Laws/Operands.lean ====
section
/-! SUPPORT. The sources of the three kinds of form, said once, and the packed results in the terms of Safety.lean. -/

namespace Sys2Proof.Machine

@[simp] theorem legacySource_reg (w : Nat) (al : Bool) (e : LegacyEnc) (len : Nat) (r : Fin 16) (s : State) :
    legacySource w al e len (.reg r) s = .ok (s.vec w r) := rfl

@[simp] theorem legacySource_mem (w : Nat) (al : Bool) (e : LegacyEnc) (len : Nat) (m : Mem) (s : State) :
    legacySource w al e len (.mem m) s = loadOperand w al e.seg e.addr32 len m s := rfl

@[simp] theorem vexSource_reg (w : Nat) (e : VexEnc) (len : Nat) (r : Fin 16) (s : State) :
    vexSource w e len (.reg r) s = .ok (s.vec w r) := rfl

@[simp] theorem vexSource_mem (w : Nat) (e : VexEnc) (len : Nat) (m : Mem) (s : State) :
    vexSource w e len (.mem m) s = loadOperand w false e.seg e.addr32 len m s := rfl

@[simp] theorem mmxSource_reg (e : LegacyEnc) (len : Nat) (r : Fin 8) (s : State) :
    mmxSource e len (.reg r) s = .ok (s.mm r) := rfl

@[simp] theorem mmxSource_mem (e : LegacyEnc) (len : Nat) (m : Mem) (s : State) :
    mmxSource e len (.mem m) s = loadOperand 64 false e.seg e.addr32 len m s := rfl

/-- A load never refuses: it answers the operand, or a fault. -/
theorem loadOperand_error {w : Nat} {al : Bool} {seg : Option Seg} {a32 : Bool} {len : Nat} {m : Mem} {s : State} {x : Stop}
    (h : loadOperand w al seg a32 len m s = .error x) : ∃ f, x = .fault f := by
  obtain ⟨f, -, hx⟩ := memRead_eq_error_iff.1 h
  exact ⟨f, hx⟩

/-- The general registers, the mode, the bases and `pc` decide a linear address; MXCSR, memory and the vector registers do not. -/
theorem linear_congr {m : Mem} {seg : Option Seg} {a32 : Bool} {len : Nat} {s t : State} (hg : t.gpr = s.gpr)
    (hm : t.mode = s.mode) (hf : t.fsBase = s.fsBase) (hb : t.gsBase = s.gsBase) (hp : t.pc = s.pc) :
    Mem.linear m seg a32 len t = Mem.linear m seg a32 len s := by
  cases m <;> simp [Mem.linear, Mem.effective, Mem.sum, segBase, State.mode64, indexValue, *]

/-- Outside 64-bit mode every segment override counts (R109). -/
@[simp] theorem countedOverride_legacy (g : Option Seg) : countedOverride false g = g := by
  cases g with
  | none => rfl
  | some g => cases g <;> rfl

/-- In 64-bit mode only FS and GS overrides count (R121). -/
theorem countedOverride_mode64 {g : Seg} (h : g ≠ .fs ∧ g ≠ .gs) : countedOverride true (some g) = none := by
  cases g <;> simp_all [countedOverride]

/-- An override that does not count leaves the default segment (R109, R121). -/
theorem segment_mode64_ignored {m : Mem} {g : Seg} (h : g ≠ .fs ∧ g ≠ .gs) :
    Mem.segment true m (some g) = Mem.segment true m none := by
  simp only [Mem.segment, countedOverride_mode64 h]
  rfl

/-! ### Packed results -/

theorem packLanes_results2 {a b w : Nat} (f : BitVec a → Conv b) (v : BitVec w) :
    packLanes (b + b) (convLanes 2 f v) = results2 f v := by
  have h : packLanes b [f (lane a 1 v)] = (f (lane a 1 v)).value := by simp [packLanes]
  rw [convLanes_two, packLanes_cons, h]; rfl

theorem packLanes_singleton {b : Nat} (c : Conv b) : packLanes b [c] = c.value := by simp [packLanes]

/-- Appending is associative; at literal widths both sides have one type. -/
theorem append_assoc_at {a b c n : Nat} (h : a + b + c = n) (x : BitVec a) (y : BitVec b) (z : BitVec c) :
    ((x ++ y) ++ z).cast h = (x ++ (y ++ z)).cast ((Nat.add_assoc a b c).symm.trans h) := by
  rw [BitVec.append_assoc]; simp

/-- Four 32-bit results fill a 128-bit register. -/
theorem packLanes_results4 {a w : Nat} (f : BitVec a → Conv 32) (v : BitVec w) :
    packLanes 128 (convLanes 4 f v) = results4 f v := by
  rw [convLanes_four, packLanes_cons (m := 96), packLanes_cons (m := 64), packLanes_cons (m := 32), packLanes_singleton]
  exact (append_assoc_at (a := 64) (n := 128) rfl _ _ _).trans (append_assoc_at (b := 32) (n := 128) rfl _ _ _)

/-- Four 64-bit results fill a 256-bit register. -/
theorem packLanes_results4_64 {a w : Nat} (f : BitVec a → Conv 64) (v : BitVec w) :
    packLanes 256 (convLanes 4 f v) = results4 f v := by
  rw [convLanes_four, packLanes_cons (m := 192), packLanes_cons (m := 128), packLanes_cons (m := 64), packLanes_singleton]
  exact (append_assoc_at (a := 128) (n := 256) rfl _ _ _).trans (append_assoc_at (b := 64) (n := 256) rfl _ _ _)

/-- Eight 32-bit results fill a 256-bit register. -/
theorem packLanes_results8 {a w : Nat} (f : BitVec a → Conv 32) (v : BitVec w) :
    packLanes 256 (convLanes 8 f v) = results8 f v := by
  rw [convLanes_eight, packLanes_cons (m := 224), packLanes_cons (m := 192), packLanes_cons (m := 160),
    packLanes_cons (m := 128), packLanes_cons (m := 96), packLanes_cons (m := 64), packLanes_cons (m := 32),
    packLanes_singleton]
  exact (append_assoc_at (a := 192) (n := 256) rfl _ _ _).trans <|
    (append_assoc_at (a := 160) (n := 256) rfl _ _ _).trans <|
    (append_assoc_at (a := 128) (n := 256) rfl _ _ _).trans <|
    (append_assoc_at (a := 96) (n := 256) rfl _ _ _).trans <|
    (append_assoc_at (a := 64) (n := 256) rfl _ _ _).trans (append_assoc_at (a := 32) (n := 256) rfl _ _ _)

/-- Bit `i` of packed results. -/
theorem getLsbD_packLanes_cons {b m : Nat} (c : Conv b) (t : List (Conv b)) (i : Nat) :
    (packLanes m (c :: t)).getLsbD i =
      (decide (i < m) && if i < b then c.value.getLsbD i else (packLanes m t).getLsbD (i - b)) := by
  simp only [packLanes, BitVec.getLsbD_or, BitVec.getLsbD_shiftLeft, BitVec.getLsbD_setWidth]
  by_cases hb : i < b
  · simp [hb]
  · simp [hb, BitVec.getLsbD_of_ge c.value i (by omega)]

/-- A wider destination holds the packed results with zeros above them. -/
theorem packLanes_zero_above {b m n : Nat} (l : List (Conv b)) (h : l.length * b ≤ m) :
    packLanes (n + m) l = 0#n ++ packLanes m l := by
  have key : ∀ (l : List (Conv b)) (m' m i : Nat), l.length * b ≤ m → m ≤ m' →
      (packLanes m' l).getLsbD i = (packLanes m l).getLsbD i := by
    intro l
    induction l with
    | nil => intros; simp [packLanes]
    | cons c t ih =>
      intro m' m i hl hm
      simp only [List.length_cons, Nat.add_mul, Nat.one_mul] at hl
      rw [getLsbD_packLanes_cons, getLsbD_packLanes_cons]
      by_cases hi : i < m
      · have hi' : i < m' := by omega
        simp only [hi, hi', decide_true, Bool.true_and]
        split
        · rfl
        · rw [ih m' (m - b) (i - b) (by omega) (by omega), ih m (m - b) (i - b) (by omega) (by omega)]
      · have hz : ¬ i < b := by omega
        simp only [hi, hz, decide_false, Bool.false_and, if_false]
        rw [ih m' (m - b) (i - b) (by omega) (by omega), BitVec.getLsbD_of_ge _ _ (by omega), Bool.and_false]
  apply BitVec.eq_of_getLsbD_eq
  intro i _
  rw [key l (n + m) m i h (by omega), BitVec.getLsbD_append]
  split
  · rfl
  · rw [BitVec.getLsbD_of_ge _ _ (by omega)]; simp

theorem unionFlags_results2 {a b w : Nat} (f : BitVec a → Conv b) (v : BitVec w) :
    unionFlags (convLanes 2 f v) = flags2 f v := by simp [flags2, unionFlags_nil]

theorem FpFlags.union_assoc (f g h : FpFlags) : (f.union g).union h = f.union (g.union h) := by
  simp [FpFlags.union, Bool.or_assoc]

theorem unionFlags_results4 {a b w : Nat} (f : BitVec a → Conv b) (v : BitVec w) :
    unionFlags (convLanes 4 f v) = flags4 f v := by
  simp [flags4, flags2, unionFlags_nil, FpFlags.union_assoc]

theorem unionFlags_results8 {a b w : Nat} (f : BitVec a → Conv b) (v : BitVec w) :
    unionFlags (convLanes 8 f v) = flags8 f v := by
  simp [flags8, flags4, flags2, unionFlags_nil, FpFlags.union_assoc]

end Sys2Proof.Machine
end

