-- ==== Sys2Proof/Laws/Commit.lean ====
section
/-! SUPPORT. What an admitted conversion comes to (R171, R172), and the frame of each way to commit a result. -/

namespace Sys2Proof.Machine

/-- The SIMD stop of a flag set that is not masked (R172, R269). -/
theorem State.simdStop_of_not_masked {s : State} {f : FpFlags} (h : ¬ Masked s f) :
    s.simdStop f = some (.fault (if s.osxmmexcpt then .simdFloatingPoint else .invalidOpcodeSimd)) := by
  have hn : s.simdStop f ≠ none := fun hs => h ((s.simdStop_eq_none_iff f).1 hs)
  unfold State.simdStop at hn ⊢
  split at hn
  · rename_i hu
    rw [if_pos hu]
  · exact absurd rfl hn

/-- An admitted conversion whose source is read completes, or ends in its SIMD fault. -/
theorem runConversion_completes {b w : Nat} {check : Option Stop} {source : Except Stop (BitVec w)} {v : BitVec w}
    {convert : BitVec w → List (Conv b)} {write : State → List (Conv b) → State} {len : Nat} {s : State} {f : FpFlags}
    {post : State → Prop} (ha : check = none) (hs : source = .ok v) (hf : unionFlags (convert v) = f)
    (hp : post ((write (s.raiseFlags f) (convert v)).retire len)) :
    Completes s (runConversion check source convert write len s) f post := by
  subst ha hs hf
  refine ⟨fun hm => ⟨_, ?_, hp⟩, fun hm => ?_⟩
  · exact runConversion_eq_next_iff.2 ⟨rfl, v, rfl, (s.simdStop_eq_none_iff _).2 hm, rfl⟩
  · rw [runConversion_of_simdStop (State.simdStop_of_not_masked hm)]
    rfl

theorem sameYmm_set {s t : State} {d : VecReg} {x : BitVec 256} (h : t.ymm = s.ymm.set d x) : SameYmm s t (some d) := by
  intro r hr
  have hne : d.val ≠ r.val := fun he => hr (congrArg some (Fin.ext he))
  simp only [h, Fin.getElem_fin]
  exact Vector.getElem_set_ne _ _ hne

theorem sameGpr_set {s t : State} {d : GenReg} {x : Word} (h : t.gpr = s.gpr.set d x) : SameGpr s t (some d) := by
  intro r hr
  have hne : d.val ≠ r.val := fun he => hr (congrArg some (Fin.ext he))
  simp only [h, Fin.getElem_fin]
  exact Vector.getElem_set_ne _ _ hne

theorem sameX87Data_set {s t : State} {d : MmxReg} {x : BitVec 80} (h : t.x87 = s.x87.set d x) :
    SameX87Data s t (some d) := by
  intro r hr
  have hne : d.val ≠ r.val := fun he => hr (congrArg some (Fin.ext he))
  simp only [h, Fin.getElem_fin]
  exact Vector.getElem_set_ne _ _ hne

/-- A write of a whole vector register commits as `VecCommit` says. -/
theorem vecCommit_writeYmm (s : State) (d : VecReg) (x : BitVec 256) (f : FpFlags) (n : Nat) :
    VecCommit s (((s.raiseFlags f).writeYmm d x).retire n) d f n where
  commit := ⟨rfl, rfl, ⟨rfl, rfl, rfl, rfl, rfl, rfl, rfl, rfl, rfl, rfl, rfl, rfl, rfl, fun _ => rfl⟩⟩
  ymm := sameYmm_set rfl
  gpr := fun _ _ => rfl
  x87 := ⟨fun _ _ => rfl, rfl, rfl, rfl⟩

/-- A legacy write commits as `VecCommit` says. -/
theorem vecCommit_writeXmm (s : State) (d : VecReg) (x : BitVec 128) (f : FpFlags) (n : Nat) :
    VecCommit s (((s.raiseFlags f).writeXmm d x).retire n) d f n :=
  vecCommit_writeYmm s d _ f n

/-- CVTPI2PD's register form commits as `MmxSourceCommit` says. -/
theorem mmxSourceCommit_writeXmm (s : State) (d : VecReg) (x : BitVec 128) (f : FpFlags) (n : Nat) :
    MmxSourceCommit s (((s.raiseFlags f).writeXmm d x).mmxTransition.retire n) d f n where
  commit := ⟨rfl, rfl, ⟨rfl, rfl, rfl, rfl, rfl, rfl, rfl, rfl, rfl, rfl, rfl, rfl, rfl, fun _ => rfl⟩⟩
  ymm := sameYmm_set rfl
  gpr := fun _ _ => rfl
  x87 := fun _ _ => rfl
  transition := ⟨rfl, rfl, rfl⟩

/-- CVTPI2PS commits as `MmxSourceCommit` says. -/
theorem mmxSourceCommit_writeXmmLow (s : State) (d : VecReg) (x : BitVec 64) (f : FpFlags) (n : Nat) :
    MmxSourceCommit s (((s.raiseFlags f).writeXmmLow d x).mmxTransition.retire n) d f n where
  commit := ⟨rfl, rfl, ⟨rfl, rfl, rfl, rfl, rfl, rfl, rfl, rfl, rfl, rfl, rfl, rfl, rfl, fun _ => rfl⟩⟩
  ymm := sameYmm_set rfl
  gpr := fun _ _ => rfl
  x87 := fun _ _ => rfl
  transition := ⟨rfl, rfl, rfl⟩

/-- A write of an MMX register with the transition commits as `MmxCommit` says. -/
theorem mmxCommit_writeMm (s : State) (d : MmxReg) (x : BitVec 64) (f : FpFlags) (n : Nat) :
    MmxCommit s (((s.raiseFlags f).writeMm d x).mmxTransition.retire n) d f n where
  commit := ⟨rfl, rfl, ⟨rfl, rfl, rfl, rfl, rfl, rfl, rfl, rfl, rfl, rfl, rfl, rfl, rfl, fun _ => rfl⟩⟩
  ymm := fun _ _ => rfl
  gpr := fun _ _ => rfl
  x87 := sameX87Data_set rfl
  high := by
    simp only [State.retire_x87, State.mmxTransition_x87, State.writeMm_x87, Fin.getElem_fin, Vector.getElem_set_self]
    apply BitVec.eq_of_getLsbD_eq
    intro i hi
    simp only [BitVec.getLsbD_extractLsb', BitVec.getLsbD_append, hi, decide_true, Bool.true_and,
      show ¬ 64 + i < 64 by omega, if_false, Nat.add_sub_cancel_left]
  transition := ⟨rfl, rfl, rfl⟩

/-- A write of a general register commits as `GprCommit` says. -/
theorem gprCommit_writeGpr64 (s : State) (d : GenReg) (x : Word) (f : FpFlags) (n : Nat) :
    GprCommit s (((s.raiseFlags f).writeGpr64 d x).retire n) d f n where
  commit := ⟨rfl, rfl, ⟨rfl, rfl, rfl, rfl, rfl, rfl, rfl, rfl, rfl, rfl, rfl, rfl, rfl, fun _ => rfl⟩⟩
  ymm := fun _ _ => rfl
  gpr := sameGpr_set rfl
  x87 := ⟨fun _ _ => rfl, rfl, rfl, rfl⟩

/-- A 32-bit write of a general register commits as `GprCommit` says. -/
theorem gprCommit_writeGpr32 (s : State) (d : GenReg) (x : BitVec 32) (f : FpFlags) (n : Nat) :
    GprCommit s (((s.raiseFlags f).writeGpr32 d x).retire n) d f n :=
  gprCommit_writeGpr64 s d _ f n

end Sys2Proof.Machine
end

