-- ==== Sys2Proof/Laws/Fetch.lean ====
section
/-! SUPPORT. What a fetch can do: it reads an admitted text up to its end, and is never longer than asked for. -/

namespace Sys2Proof.Machine

theorem fetchFault_eq_none_iff {s : State} {a : Nat} : fetchFault s a = none ↔ Admission.answer s.fetchMap a = .granted := by
  unfold fetchFault
  cases Admission.answer s.fetchMap a <;> simp

/-- A fetch gives at most the bytes it was asked for. -/
theorem fetchFrom_length_le (s : State) (a n : Nat) : (fetchFrom s a n).1.length ≤ n := by
  induction n generalizing a with
  | zero => simp [fetchFrom]
  | succ n ih =>
    unfold fetchFrom
    split
    · simp
    · split
      · simp
      · simpa using ih (a + 1)

/-- One more byte that is inside the address space and admitted. -/
theorem fetchFrom_succ {s : State} {a n : Nat} (hl : a < s.addressLimit)
    (ha : Admission.answer s.fetchMap a = .granted) :
    fetchFrom s a (n + 1) = (s.mem.read a :: (fetchFrom s (a + 1) n).1, (fetchFrom s (a + 1) n).2) := by
  conv_lhs => unfold fetchFrom
  simp [Nat.not_le.2 hl, fetchFault_eq_none_iff.2 ha]

/-- A fetch of at least a text's length begins with the text and goes on with the fetch after it. -/
theorem fetchFrom_text {s : State} {bytes : List Byte} {a n : Nat}
    (below : a + bytes.length ≤ s.addressLimit)
    (byte : ∀ k (h : k < bytes.length), Admission.answer s.fetchMap (a + k) = .granted ∧ s.mem.read (a + k) = bytes[k]) :
    fetchFrom s a (bytes.length + n) =
      (bytes ++ (fetchFrom s (a + bytes.length) n).1, (fetchFrom s (a + bytes.length) n).2) := by
  induction bytes generalizing a with
  | nil => simp
  | cons b t ih =>
    simp only [List.length_cons] at below
    obtain ⟨h0, h1⟩ := byte 0 (by simp)
    simp only [Nat.add_zero, List.getElem_cons_zero] at h0 h1
    have htail := ih (a := a + 1) (by omega) (by
      intro k hk
      have := byte (k + 1) (by simp; omega)
      simpa [Nat.add_assoc, Nat.add_comm 1 k] using this)
    rw [show (b :: t).length + n = (t.length + n) + 1 by simp; omega, fetchFrom_succ (by omega) h0, htail, h1]
    simp [Nat.add_comm t.length 1, Nat.add_assoc]

/-- The fetch window begins with the text at `pc`. -/
theorem fetchWindow_text {s : State} {bytes : List Byte} (h : TextAt s bytes) (hlen : bytes.length ≤ maxLen) :
    ∃ rest, (fetchWindow s).1 = bytes ++ rest := by
  have := fetchFrom_text (s := s) (n := maxLen - bytes.length) h.below h.byte
  rw [show bytes.length + (maxLen - bytes.length) = maxLen by omega] at this
  exact ⟨_, by rw [fetchWindow, this]⟩

/-- A next state comes from executing the decoded instruction. -/
theorem step_eq_next {s t : State} (h : step s = .next t) :
    s.mode.modelled = true ∧ ∃ i rest, decodeAt s = .ok i rest ∧ exec i s = .next t := by
  unfold step at h
  split at h
  · rename_i hm
    refine ⟨hm, ?_⟩
    split at h
    · rename_i i rest hd
      exact ⟨i, rest, hd, h⟩
    · cases h
    · cases h
    · cases hs : (fetchWindow s).2 <;> rw [hs] at h <;> cases h
  · cases h

end Sys2Proof.Machine
end

