-- ==== Sys2Proof/Laws/PerInstr.lean ====
section
/-! SUPPORT. Statements for every instruction, one lemma per constructor. `LengthBounds`: `ilen` lies between 3 and 12 bytes
(R92, whose own count of the longest form, 11, leaves out one byte of the parts it lists: 1 + 1 + 3 + 1 + 1 + 1 + 4 = 12). -/

namespace Sys2Proof.Laws.LengthBounds

/-- The length of every form lies between 3 and 12 bytes. -/
def Statement (i : Instr) : Prop := 3 ≤ i.len ∧ i.len ≤ 12

theorem disp_le (d : Disp) : d.len ≤ 4 := by cases d <;> simp [Disp.len]

theorem rm_le {n : Nat} (r : RM n) : r.len ≤ 5 := by
  rcases r with r | m
  · exact Nat.zero_le 5
  · rcases m with ⟨_, d⟩ | ⟨_, _, d⟩ | _ | _ | _
    · exact (disp_le d).trans (by decide)
    · have := disp_le d
      simp only [RM.len]; omega
    all_goals simp [RM.len]

theorem seg_le (o : Option Seg) : o.toList.length ≤ 1 := by cases o <;> simp

theorem addr_le (b : Bool) : b.toNat ≤ 1 := by cases b <;> decide

/-- A legacy form: two optional prefixes, a mandatory one, REX, two opcode bytes, ModRM, SIB and displacement. -/
theorem legacy (f : Form) (hf : f.vex = false) (e : LegacyEnc) (d : Fin 16) (src : RM 16) :
    3 ≤ (legacyFields f e d src).len ∧ (legacyFields f e d src).len ≤ 12 := by
  have h1 := rm_le src
  have h2 := seg_le e.seg
  have h3 := addr_le e.addr32
  have h4 := addr_le e.rex
  simp only [legacyFields, Fields.len, hf, Bool.false_eq_true, if_false]
  by_cases hp : f.pp = 0 <;> simp only [hp, if_true, if_false] <;> omega

/-- A VEX form: two optional prefixes, two or three VEX bytes, the opcode, ModRM, SIB and displacement. -/
theorem vex (f : Form) (hf : f.vex = true) (e : VexEnc) (d : Fin 16) (src : RM 16) :
    3 ≤ (vexFields f e d src).len ∧ (vexFields f e d src).len ≤ 12 := by
  have h1 := rm_le src
  have h2 := seg_le e.seg
  have h3 := addr_le e.addr32
  simp only [vexFields, Fields.len, hf, if_true]
  by_cases hp : e.three = true <;> simp [hp] <;> omega

theorem cvtdq2pd (e : LegacyEnc) (d : VecReg) (src : RM 16) : Statement (.cvtdq2pd e d src) :=
  legacy .cvtdq2pd rfl e d src

theorem vcvtdq2pd128 (e : VexEnc) (d : VecReg) (src : RM 16) : Statement (.vcvtdq2pd128 e d src) :=
  vex .vcvtdq2pd128 rfl e d src

theorem vcvtdq2pd256 (e : VexEnc) (d : VecReg) (src : RM 16) : Statement (.vcvtdq2pd256 e d src) :=
  vex .vcvtdq2pd256 rfl e d src

theorem cvtdq2ps (e : LegacyEnc) (d : VecReg) (src : RM 16) : Statement (.cvtdq2ps e d src) :=
  legacy .cvtdq2ps rfl e d src

theorem vcvtdq2ps128 (e : VexEnc) (d : VecReg) (src : RM 16) : Statement (.vcvtdq2ps128 e d src) :=
  vex .vcvtdq2ps128 rfl e d src

theorem vcvtdq2ps256 (e : VexEnc) (d : VecReg) (src : RM 16) : Statement (.vcvtdq2ps256 e d src) :=
  vex .vcvtdq2ps256 rfl e d src

theorem cvtpd2dq (e : LegacyEnc) (d : VecReg) (src : RM 16) : Statement (.cvtpd2dq e d src) :=
  legacy .cvtpd2dq rfl e d src

theorem vcvtpd2dq128 (e : VexEnc) (d : VecReg) (src : RM 16) : Statement (.vcvtpd2dq128 e d src) :=
  vex .vcvtpd2dq128 rfl e d src

theorem vcvtpd2dq256 (e : VexEnc) (d : VecReg) (src : RM 16) : Statement (.vcvtpd2dq256 e d src) :=
  vex .vcvtpd2dq256 rfl e d src

theorem cvtpd2pi (e : LegacyEnc) (d : MmxReg) (src : RM 16) : Statement (.cvtpd2pi e d src) :=
  legacy .cvtpd2pi rfl e (mmxReg4 d) src

theorem cvtpd2ps (e : LegacyEnc) (d : VecReg) (src : RM 16) : Statement (.cvtpd2ps e d src) :=
  legacy .cvtpd2ps rfl e d src

theorem vcvtpd2ps128 (e : VexEnc) (d : VecReg) (src : RM 16) : Statement (.vcvtpd2ps128 e d src) :=
  vex .vcvtpd2ps128 rfl e d src

theorem vcvtpd2ps256 (e : VexEnc) (d : VecReg) (src : RM 16) : Statement (.vcvtpd2ps256 e d src) :=
  vex .vcvtpd2ps256 rfl e d src

theorem cvtpi2pd (e : LegacyEnc) (d : VecReg) (src : RM 8) : Statement (.cvtpi2pd e d src) :=
  legacy .cvtpi2pd rfl e d (rmOfMmx src)

theorem cvtpi2ps (e : LegacyEnc) (d : VecReg) (src : RM 8) : Statement (.cvtpi2ps e d src) :=
  legacy .cvtpi2ps rfl e d (rmOfMmx src)

theorem cvtps2dq (e : LegacyEnc) (d : VecReg) (src : RM 16) : Statement (.cvtps2dq e d src) :=
  legacy .cvtps2dq rfl e d src

theorem vcvtps2dq128 (e : VexEnc) (d : VecReg) (src : RM 16) : Statement (.vcvtps2dq128 e d src) :=
  vex .vcvtps2dq128 rfl e d src

theorem vcvtps2dq256 (e : VexEnc) (d : VecReg) (src : RM 16) : Statement (.vcvtps2dq256 e d src) :=
  vex .vcvtps2dq256 rfl e d src

theorem cvtps2pd (e : LegacyEnc) (d : VecReg) (src : RM 16) : Statement (.cvtps2pd e d src) :=
  legacy .cvtps2pd rfl e d src

theorem vcvtps2pd128 (e : VexEnc) (d : VecReg) (src : RM 16) : Statement (.vcvtps2pd128 e d src) :=
  vex .vcvtps2pd128 rfl e d src

theorem vcvtps2pd256 (e : VexEnc) (d : VecReg) (src : RM 16) : Statement (.vcvtps2pd256 e d src) :=
  vex .vcvtps2pd256 rfl e d src

theorem cvtps2pi (e : LegacyEnc) (d : MmxReg) (src : RM 16) : Statement (.cvtps2pi e d src) :=
  legacy .cvtps2pi rfl e (mmxReg4 d) src

theorem cvtsd2si32 (e : LegacyEnc) (d : GenReg) (src : RM 16) : Statement (.cvtsd2si32 e d src) :=
  legacy .cvtsd2si32 rfl e d src

theorem cvtsd2si64 (e : LegacyEnc) (d : GenReg) (src : RM 16) : Statement (.cvtsd2si64 e d src) :=
  legacy .cvtsd2si64 rfl e d src

theorem vcvtsd2si32 (e : VexEnc) (d : GenReg) (src : RM 16) : Statement (.vcvtsd2si32 e d src) :=
  vex .vcvtsd2si32 rfl e d src

theorem vcvtsd2si64 (e : VexEnc) (d : GenReg) (src : RM 16) : Statement (.vcvtsd2si64 e d src) :=
  vex .vcvtsd2si64 rfl e d src

end Sys2Proof.Laws.LengthBounds
end

