-- ==== Sys2Proof/Laws/Rounding.lean ====
section
/-! SUPPORT. The one rounding of the model, `roundDiv`, against the rational reference `Rounds` (R143). -/

namespace Sys2Proof.Machine

/-- `roundDiv` picks the integer that R143 picks for the rational `num / den`. -/
theorem roundDiv_rounds (rc : Rounding) (num : Int) {den : Nat} (hd : 0 < den) :
    Rounds rc 1 ((num : ℚ) / den) (roundDiv rc num den : Int) := by
  have hdq : (0 : ℚ) < den := by exact_mod_cast hd
  have hdz : (0 : Int) < den := by exact_mod_cast hd
  obtain ⟨lo, hlo⟩ : ∃ lo, lo = num / (den : Int) := ⟨_, rfl⟩
  obtain ⟨rem, hrem⟩ : ∃ rem, rem = num % (den : Int) := ⟨_, rfl⟩
  have hdiv : num = den * lo + rem := by rw [hlo, hrem]; exact (Int.mul_ediv_add_emod num den).symm
  have hr0 : 0 ≤ rem := hrem ▸ Int.emod_nonneg _ (by omega)
  have hr1 : rem < den := hrem ▸ Int.emod_lt_of_pos _ hdz
  have hq : (num : ℚ) / den = lo + (rem : ℚ) / den := by
    rw [hdiv]; push_cast; field_simp
  have hx0 : (0 : ℚ) ≤ (rem : ℚ) / den := div_nonneg (by exact_mod_cast hr0) hdq.le
  have hx1 : (rem : ℚ) / den < 1 := by rw [div_lt_one hdq]; exact_mod_cast hr1
  unfold roundDiv
  simp only [← hlo, ← hrem]
  by_cases hz : rem = 0
  · have hq0 : (num : ℚ) / den = lo := by rw [hq, hz]; simp
    rw [if_pos hz, hq0]
    refine ⟨lo, by simp, ?_⟩
    cases rc
    · simp only [sub_self, abs_zero]; norm_num
    · exact ⟨le_rfl, by linarith⟩
    · exact ⟨by linarith, le_rfl⟩
    · exact ⟨le_rfl, by linarith, mul_self_nonneg _⟩
  · have hpos : (0 : ℚ) < (rem : ℚ) / den := div_pos (by exact_mod_cast lt_of_le_of_ne hr0 (Ne.symm hz)) hdq
    rw [if_neg hz, hq]
    cases rc
    · -- nearest
      simp only
      have h2 : (2 * ((rem : ℚ) / den) < 1 ↔ 2 * rem < den) := by
        rw [← mul_div_assoc, div_lt_one hdq]; exact_mod_cast Iff.rfl
      have h3 : (1 < 2 * ((rem : ℚ) / den) ↔ (den : Int) < 2 * rem) := by
        rw [← mul_div_assoc, one_lt_div hdq]; exact_mod_cast Iff.rfl
      have ha : |(lo : ℚ) + (rem : ℚ) / den - lo| = (rem : ℚ) / den := by
        rw [add_sub_cancel_left, abs_of_pos hpos]
      have hb : |(lo : ℚ) + (rem : ℚ) / den - ((lo + 1 : Int) : ℚ)| = 1 - (rem : ℚ) / den := by
        push_cast
        rw [show (lo : ℚ) + (rem : ℚ) / den - (lo + 1) = -(1 - (rem : ℚ) / den) by ring, abs_neg, abs_of_pos (by linarith)]
      split
      · rename_i h
        have := h2.2 h
        exact ⟨lo, by simp, by rw [ha]; linarith, by rw [ha]; intro h'; linarith⟩
      · split
        · rename_i h
          have := h3.2 h
          exact ⟨lo + 1, by simp, by rw [hb]; linarith, by rw [hb]; intro h'; linarith⟩
        · rename_i hn1 hn2
          have h4 : (rem : ℚ) / den = 1 / 2 := by
            have e1 := mt h2.1 hn1
            have e2 := mt h3.1 hn2
            linarith
          split
          · rename_i he
            exact ⟨lo, by simp, by rw [ha, h4], fun _ => he⟩
          · rename_i ho
            exact ⟨lo + 1, by simp, by rw [hb, h4]; norm_num, fun _ => by omega⟩
    · exact ⟨lo, by simp, by linarith, by linarith⟩
    · refine ⟨lo + 1, by simp, ?_, ?_⟩ <;> push_cast <;> linarith
    · -- toward zero
      have hsign : 0 < num ↔ 0 ≤ lo := by
        constructor
        · intro h; by_contra hn; nlinarith
        · intro h
          have : 0 < rem := lt_of_le_of_ne hr0 (Ne.symm hz)
          rw [hdiv]; positivity
      simp only
      split
      · rename_i h
        have hl : (0 : ℚ) ≤ lo := by exact_mod_cast hsign.1 h
        refine ⟨lo, by simp, ?_, ?_, ?_⟩
        · rw [abs_of_nonneg hl, abs_of_nonneg (by linarith)]; linarith
        · rw [abs_of_nonneg hl, abs_of_nonneg (by linarith)]; linarith
        · exact mul_nonneg hl (by linarith)
      · rename_i h
        have hl : (lo : ℚ) + 1 ≤ 0 := by
          have : ¬ 0 ≤ lo := mt hsign.2 h
          exact_mod_cast (show lo + 1 ≤ 0 by omega)
        refine ⟨lo + 1, by simp, ?_, ?_, ?_⟩
        · push_cast
          rw [abs_of_nonpos hl, abs_of_nonpos (by linarith)]; linarith
        · push_cast
          rw [abs_of_nonpos hl, abs_of_nonpos (by linarith)]; linarith
        · push_cast
          exact mul_nonneg_of_nonpos_of_nonpos hl (by linarith)

/-- Scaling the grid and both values by a positive factor keeps the rounding. -/
theorem Rounds.scale {rc : Rounding} {q r : ℚ} (h : Rounds rc 1 q r) {g : ℚ} (hg : 0 < g) :
    Rounds rc g (q * g) (r * g) := by
  obtain ⟨n, hn, h⟩ := h
  refine ⟨n, by rw [hn]; ring, ?_⟩
  have abs_g : ∀ x : ℚ, |x * g| = |x| * g := fun x => by rw [abs_mul, abs_of_pos hg]
  cases rc
  · obtain ⟨h1, h2⟩ := h
    have e : |q * g - r * g| = |q - r| * g := by rw [← sub_mul, abs_g]
    rw [e]
    refine ⟨by nlinarith, fun h' => h2 ?_⟩
    exact mul_right_cancel₀ hg.ne' (by rw [h']; ring)
  · obtain ⟨h1, h2⟩ := h
    exact ⟨by nlinarith, by nlinarith⟩
  · obtain ⟨h1, h2⟩ := h
    exact ⟨by nlinarith, by nlinarith⟩
  · obtain ⟨h1, h2, h3⟩ := h
    rw [abs_g, abs_g]
    exact ⟨by nlinarith, by nlinarith, by nlinarith [mul_nonneg h3 (mul_pos hg hg).le]⟩

/-- A value on the grid is its own rounding. -/
theorem Rounds.exact (rc : Rounding) {g : ℚ} (hg : 0 < g) (n : Int) : Rounds rc g (n * g) (n * g) := by
  refine ⟨n, rfl, ?_⟩
  cases rc
  · refine ⟨by rw [sub_self, abs_zero]; positivity, fun h => ?_⟩
    simp only [sub_self, abs_zero] at h
    linarith
  · exact ⟨le_rfl, by linarith⟩
  · exact ⟨by linarith, le_rfl⟩
  · exact ⟨le_rfl, by linarith, mul_self_nonneg _⟩

/-- The rational that a `Scaled` stands for. -/
def Scaled.val (q : Scaled) : ℚ := q.num * 2 ^ q.exp

/-- `roundTo` picks the multiple of `2^grid` that R143 picks, and says whether it differs from the value. -/
theorem Scaled.roundTo_spec (q : Scaled) (grid : Int) (rc : Rounding) :
    Rounds rc (2 ^ grid) q.val ((q.roundTo grid rc).1 * 2 ^ grid) ∧
    ((q.roundTo grid rc).2 = true ↔ ((q.roundTo grid rc).1 : ℚ) * 2 ^ grid ≠ q.val) := by
  have hg : (0 : ℚ) < 2 ^ grid := by positivity
  unfold Scaled.roundTo Scaled.val
  by_cases h : grid ≤ q.exp
  · obtain ⟨k, hk⟩ : ∃ k : Nat, q.exp = grid + k := ⟨(q.exp - grid).toNat, by omega⟩
    have hv : (q.num : ℚ) * 2 ^ q.exp = ((q.num * 2 ^ k : Int) : ℚ) * 2 ^ grid := by
      rw [hk, zpow_add₀ (by norm_num), zpow_natCast]; push_cast; ring
    have hkn : (q.exp - grid).toNat = k := by omega
    simp only [h, if_true, hkn]
    refine ⟨?_, ?_⟩
    · rw [hv]; exact Rounds.exact rc hg _
    · rw [hv]; simp
  · obtain ⟨k, hk⟩ : ∃ k : Nat, grid = q.exp + k := ⟨(grid - q.exp).toNat, by omega⟩
    have hkn : (grid - q.exp).toNat = k := by omega
    have hden : 0 < 2 ^ k := Nat.two_pow_pos k
    have hv : (q.num : ℚ) * 2 ^ q.exp = (q.num : ℚ) / ((2 ^ k : Nat) : ℚ) * 2 ^ grid := by
      rw [hk, zpow_add₀ (by norm_num), zpow_natCast]; push_cast; field_simp
    simp only [h, if_false, hkn]
    refine ⟨?_, ?_⟩
    · rw [hv]; exact (roundDiv_rounds rc q.num hden).scale hg
    · rw [hv]
      have hcancel : ((roundDiv rc q.num (2 ^ k) : Int) : ℚ) * 2 ^ grid ≠ (q.num : ℚ) / ((2 ^ k : Nat) : ℚ) * 2 ^ grid ↔
          ((roundDiv rc q.num (2 ^ k) : Int) : ℚ) ≠ (q.num : ℚ) / ((2 ^ k : Nat) : ℚ) := by
        rw [Ne, mul_left_inj' hg.ne']
      rw [hcancel, decide_eq_true_eq]
      have hdq : ((2 ^ k : Nat) : ℚ) ≠ 0 := by positivity
      constructor
      · intro hne heq
        rw [eq_div_iff hdq] at heq
        have : roundDiv rc q.num (2 ^ k) * ((2 ^ k : Nat) : Int) = q.num := by exact_mod_cast heq
        exact hne (by rw [← this]; exact Int.mul_emod_left _ _)
      · intro hne hz
        apply hne
        unfold roundDiv
        simp only [hz, if_true]
        rw [eq_div_iff hdq]
        have := Int.ediv_mul_cancel (Int.dvd_of_emod_eq_zero hz)
        exact_mod_cast this

end Sys2Proof.Machine
end

