-- ==== Sys2Proof/Laws/Run.lean ====
section
/-! SUPPORT. What loading a text and a run can do: a text that wraps, the three ends and one step of a run, said once (R302,
R304). -/

namespace Sys2Proof.Machine

/-- At the end of the text the run has finished, whatever bound is left: no step is taken there. -/
theorem run_at_end {fin : Word} {s : State} (n : Nat) (h : s.pc = fin) : run fin n s = .finished s := by
  cases n <;> simp [run, h]

/-- Before the end a next state goes on. -/
theorem run_next {fin : Word} {s t : State} {n : Nat} (h : s.pc ≠ fin) (hs : step s = .next t) :
    run fin (n + 1) s = run fin n t := by
  simp [run, h, hs]

/-- Before the end a fault ends the run with the faulted state. -/
theorem run_fault {fin : Word} {s : State} {f : Fault} {n : Nat} (h : s.pc ≠ fin) (hs : step s = .fault f) :
    run fin (n + 1) s = .faulted f (s.atFault f) := by
  simp [run, h, hs]

/-- Before the end a refusal ends the run. -/
theorem run_refused {fin : Word} {s : State} {r : Refusal} {n : Nat} (h : s.pc ≠ fin) (hs : step s = .refused r) :
    run fin (n + 1) s = .refused r s := by
  simp [run, h, hs]

/-- A run that has finished stands at the end of the text. -/
theorem run_finished_pc {fin : Word} {n : Nat} {s t : State} (h : run fin n s = .finished t) : t.pc = fin := by
  induction n generalizing s with
  | zero =>
    unfold run at h
    split at h <;> simp_all
  | succ n ih =>
    unfold run at h
    split at h
    · simp_all
    · split at h
      · exact ih h
      · cases h
      · cases h

theorem textFits_iff {s : State} {text : List Byte} :
    textFits s text = true ↔ s.pc.toNat + text.length ≤ s.addressLimit := by simp [textFits]

/-- A load answers a state exactly for a text that fits, and then the text is placed. -/
theorem loadText_eq_ok_iff {s t : State} {text : List Byte} :
    loadText s text = .ok t ↔ s.pc.toNat + text.length ≤ s.addressLimit ∧ t = placeText s text := by
  rw [← textFits_iff]
  unfold loadText
  cases textFits s text <;> simp [eq_comm]

/-- A run of a text that fits is a run from the placed text. -/
theorem runText_of_fits {s : State} {text : List Byte} {n : Nat} (h : s.pc.toNat + text.length ≤ s.addressLimit) :
    runText text n s = run (textEnd s text.length) n (placeText s text) := by
  simp [runText, loadText_eq_ok_iff.2 ⟨h, rfl⟩]

/-- A text that wraps is refused before its first instruction. -/
theorem runText_of_wraps {s : State} {text : List Byte} {n : Nat} (h : s.addressLimit < s.pc.toNat + text.length) :
    runText text n s = .refused .wrapsAddressSpace s := by
  simp [runText, loadText, textFits, Nat.not_le.2 h]

end Sys2Proof.Machine
end

