-- ==== Sys2Proof/Tests/Slice0.lean ====
section
/-! SUPPORT. The model's own tests: ill-formed terms that WellFormed refuses, words written out from the spec's encodings,
the worked examples of the instruction rules and of `95_test_vectors.md`, and for each statement with hypotheses a concrete
state and operands that meet them. -/

namespace Sys2Proof.Tests

open Sys2Proof Sys2Proof.Machine

set_option Elab.async false

/-! ### Helpers -/

/-- A legacy form without prefixes. -/
def plain : LegacyEnc := ⟨none, false, false⟩
/-- A legacy form with a REX byte. -/
def rexed : LegacyEnc := ⟨none, false, true⟩
/-- A VEX form with the two-byte prefix. -/
def vex2 : VexEnc := ⟨none, false, false⟩
/-- A VEX form with the three-byte prefix. -/
def vex3 : VexEnc := ⟨none, false, true⟩

/-- The machine after reset with the launch controls of R47: 64-bit mode, MXCSR = 1F80H, every load admitted. -/
def launched : State := launchControls State.reset
/-- The same machine outside 64-bit mode. -/
def launched32 : State := { launched with mode := .bits32 }

/-- The memory operand `[rax]`; RAX is 0 after reset. -/
def atRax : Sys2Proof.Mem := .based 0 .none

def isNext : Out → Bool
  | .next _ => true
  | _ => false

/-- The state of a next outcome. -/
def after : Out → State
  | .next t => t
  | _ => State.reset

theorem eq_next_of_isNext {o : Out} (h : isNext o = true) : o = .next (after o) := by
  cases o <;> simp_all [isNext, after]

/-- The fault of a fault outcome. -/
def faultOf : Out → Option Fault
  | .fault f => some f
  | _ => none

/-- The refusal of a refused outcome. -/
def refusalOf : Out → Option Refusal
  | .refused r => some r
  | _ => none

/-- The value of a successful read. -/
def okOf {α : Type} : Except Stop α → Option α
  | .ok v => some v
  | .error _ => none

theorem eq_fault_of {o : Out} {f : Fault} (h : faultOf o = some f) : o = .fault f := by
  cases o <;> simp_all [faultOf]

theorem eq_refused_of {o : Out} {r : Refusal} (h : refusalOf o = some r) : o = .refused r := by
  cases o <;> simp_all [refusalOf]

theorem eq_ok_of {α : Type} {e : Except Stop α} {v : α} (h : okOf e = some v) : e = .ok v := by
  cases e <;> simp_all [okOf]

theorem launched_ready : LegacyReady launched true := ⟨rfl, rfl, rfl, .inl rfl, rfl⟩
theorem launched_vexReady : VexReady launched := ⟨rfl, rfl, rfl, .inl rfl, rfl⟩
theorem launched32_ready : LegacyReady launched32 true := ⟨rfl, rfl, rfl, .inr rfl, rfl⟩
theorem launched32_vexReady : VexReady launched32 := ⟨rfl, rfl, rfl, .inr rfl, rfl⟩

/-! ### WellFormed refuses -/

theorem test_wf_refuses_register_above_7_outside_64_bit : (Instr.cvtdq2pd plain 8 (.reg 1)).wf false = false := by
  decide

theorem test_wf_refuses_register_above_7_without_rex : (Instr.cvtdq2pd plain 0 (.reg 9)).wf true = false := by
  decide

theorem test_wf_refuses_vex_source_above_7_in_two_bytes : (Instr.vcvtdq2pd128 vex2 8 (.reg 9)).wf true = false := by
  decide

theorem test_wf_refuses_rex_outside_64_bit : (Instr.cvtdq2ps rexed 0 (.reg 1)).wf false = false := by
  decide

theorem test_wf_refuses_address_size_prefix_outside_64_bit : (Instr.cvtdq2ps ⟨none, true, false⟩ 0 (.reg 1)).wf false = false := by
  decide

theorem test_wf_refuses_vex_address_size_prefix_outside_64_bit : (Instr.vcvtdq2ps128 ⟨none, true, false⟩ 0 (.reg 1)).wf false = false := by
  decide

theorem test_wf_refuses_base_4_without_sib : (Instr.cvtdq2pd plain 0 (.mem (.based 4 .none))).wf true = false := by
  decide

theorem test_wf_refuses_base_5_without_displacement : (Instr.cvtdq2pd plain 0 (.mem (.based 5 .none))).wf true = false := by
  decide

theorem test_wf_refuses_sib_base_5_without_displacement : (Instr.cvtdq2pd plain 0 (.mem (.sib 5 none .none))).wf true = false := by
  decide

theorem test_wf_refuses_index_4 : (Instr.cvtdq2pd plain 0 (.mem (.sib 0 (some (4, .x2)) .none))).wf true = false := by
  decide

theorem test_wf_refuses_index_above_7_without_extension : (Instr.cvtdq2pd plain 0 (.mem (.sibNoBase (some (12, .x2)) 0))).wf true = false := by
  decide

theorem test_wf_refuses_rip_relative_outside_64_bit : (Instr.cvtps2pd plain 0 (.mem (.ripRel 0))).wf false = false := by
  decide

theorem test_wf_refuses_absolute_without_sib_in_64_bit : (Instr.cvtps2pd plain 0 (.mem (.abs 0))).wf true = false := by
  decide

theorem test_wf_refuses_mmx_source_memory_base : (Instr.cvtpi2ps plain 0 (.mem (.based 4 .none))).wf true = false := by
  decide

theorem test_wf_refuses_mmx_destination_source_above_7 : (Instr.cvtps2pi plain 0 (.reg 8)).wf true = false := by
  decide

theorem test_wf_refuses_r64_row_without_rex : (Instr.cvtsd2si64 plain 0 (.reg 0)).wf true = false := by
  decide

theorem test_wf_refuses_r64_vex_row_in_two_bytes : (Instr.vcvtsd2si64 vex2 0 (.reg 0)).wf true = false := by
  decide

theorem test_wf_refuses_r64_vex_row_outside_64_bit : (Instr.vcvtsd2si64 vex3 0 (.reg 0)).wf false = false := by
  decide

/-! ### Decoding: every row, from the bytes of `30_encoding.md` R118, R127 and `95_test_vectors.md` section 2.
ModRM bytes are written bit by bit: mod, reg, rm. -/

theorem test_decode_row1 : decode true [0xF3#8, 0x0F#8, 0xE6#8, 0b11000001#8] = .ok (.cvtdq2pd plain 0 (.reg 1)) [] := by
  decide

theorem test_decode_row1_memory : decode true [0xF3#8, 0x0F#8, 0xE6#8, 0b00000000#8] = .ok (.cvtdq2pd plain 0 (.mem atRax)) [] := by
  decide

theorem test_decode_row2 : decode true [0xC5#8, 0b11111010#8, 0xE6#8, 0b11000001#8] = .ok (.vcvtdq2pd128 vex2 0 (.reg 1)) [] := by
  decide

theorem test_decode_row2_three_byte : decode true [0xC4#8, 0b01000001#8, 0b01111010#8, 0xE6#8, 0b11000001#8] = .ok (.vcvtdq2pd128 vex3 8 (.reg 9)) [] := by
  decide

theorem test_decode_row2_w_ignored : decode true [0xC4#8, 0b01000001#8, 0b11111010#8, 0xE6#8, 0b11000001#8] = .ok (.vcvtdq2pd128 vex3 8 (.reg 9)) [] := by
  decide

theorem test_decode_row3 : decode true [0xC5#8, 0b11111110#8, 0xE6#8, 0b01000011#8, 0x10#8] = .ok (.vcvtdq2pd256 vex2 0 (.mem (.based 3 (.disp8 0x10)))) [] := by
  decide

theorem test_decode_row4 : decode true [0x0F#8, 0x5B#8, 0b11000001#8] = .ok (.cvtdq2ps plain 0 (.reg 1)) [] := by
  decide

theorem test_decode_row4_memory : decode true [0x0F#8, 0x5B#8, 0b00000000#8] = .ok (.cvtdq2ps plain 0 (.mem atRax)) [] := by
  decide

theorem test_decode_row5 : decode true [0xC5#8, 0b11111000#8, 0x5B#8, 0b11000001#8] = .ok (.vcvtdq2ps128 vex2 0 (.reg 1)) [] := by
  decide

theorem test_decode_row6 : decode true [0xC5#8, 0b11111100#8, 0x5B#8, 0b11000001#8] = .ok (.vcvtdq2ps256 vex2 0 (.reg 1)) [] := by
  decide

theorem test_decode_row7 : decode true [0xF2#8, 0x0F#8, 0xE6#8, 0b11010000#8] = .ok (.cvtpd2dq plain 2 (.reg 0)) [] := by
  decide

theorem test_decode_row8 : decode true [0xC5#8, 0b11111011#8, 0xE6#8, 0b11000001#8] = .ok (.vcvtpd2dq128 vex2 0 (.reg 1)) [] := by
  decide

theorem test_decode_row9 : decode true [0xC5#8, 0b11111111#8, 0xE6#8, 0b11000001#8] = .ok (.vcvtpd2dq256 vex2 0 (.reg 1)) [] := by
  decide

theorem test_decode_row10 : decode true [0x66#8, 0x0F#8, 0x2D#8, 0b11010000#8] = .ok (.cvtpd2pi plain 2 (.reg 0)) [] := by
  decide

theorem test_decode_row10_rex_b : decode true [0x66#8, 0b01000001#8, 0x0F#8, 0x2D#8, 0b11010000#8] = .ok (.cvtpd2pi rexed 2 (.reg 8)) [] := by
  decide

theorem test_decode_row10_rex_r_ignored : decode true [0x66#8, 0b01000100#8, 0x0F#8, 0x2D#8, 0b11010000#8] = .ok (.cvtpd2pi rexed 2 (.reg 0)) [] := by
  decide

theorem test_decode_row11 : decode true [0x66#8, 0x0F#8, 0x5A#8, 0b11001000#8] = .ok (.cvtpd2ps plain 1 (.reg 0)) [] := by
  decide

theorem test_decode_row11_sib : decode true [0x66#8, 0b01000101#8, 0x0F#8, 0x5A#8, 0b01001100#8, 0b11001000#8, 0x10#8] = .ok (.cvtpd2ps rexed 9 (.mem (.sib 8 (some (1, .x8)) (.disp8 0x10)))) [] := by
  decide

theorem test_decode_row12 : decode true [0xC5#8, 0b11111001#8, 0x5A#8, 0b11001000#8] = .ok (.vcvtpd2ps128 vex2 1 (.reg 0)) [] := by
  decide

theorem test_decode_row13 : decode true [0xC5#8, 0b11111101#8, 0x5A#8, 0b11001000#8] = .ok (.vcvtpd2ps256 vex2 1 (.reg 0)) [] := by
  decide

theorem test_decode_row14 : decode true [0x66#8, 0x0F#8, 0x2A#8, 0b11000001#8] = .ok (.cvtpi2pd plain 0 (.reg 1)) [] := by
  decide

theorem test_decode_row14_memory : decode true [0x66#8, 0x0F#8, 0x2A#8, 0b00000000#8] = .ok (.cvtpi2pd plain 0 (.mem atRax)) [] := by
  decide

theorem test_decode_row15 : decode true [0x0F#8, 0x2A#8, 0b11011000#8] = .ok (.cvtpi2ps plain 3 (.reg 0)) [] := by
  decide

theorem test_decode_row16 : decode true [0x66#8, 0x0F#8, 0x5B#8, 0b11001000#8] = .ok (.cvtps2dq plain 1 (.reg 0)) [] := by
  decide

theorem test_decode_row17 : decode true [0xC5#8, 0b11111001#8, 0x5B#8, 0b11001000#8] = .ok (.vcvtps2dq128 vex2 1 (.reg 0)) [] := by
  decide

theorem test_decode_row18 : decode true [0xC5#8, 0b11111101#8, 0x5B#8, 0b11001000#8] = .ok (.vcvtps2dq256 vex2 1 (.reg 0)) [] := by
  decide

theorem test_decode_row19 : decode true [0x0F#8, 0x5A#8, 0b11001000#8] = .ok (.cvtps2pd plain 1 (.reg 0)) [] := by
  decide

theorem test_decode_row20 : decode true [0xC5#8, 0b11111000#8, 0x5A#8, 0b11001000#8] = .ok (.vcvtps2pd128 vex2 1 (.reg 0)) [] := by
  decide

theorem test_decode_row21 : decode true [0xC5#8, 0b11111100#8, 0x5A#8, 0b11010001#8] = .ok (.vcvtps2pd256 vex2 2 (.reg 1)) [] := by
  decide

theorem test_decode_row22 : decode true [0x0F#8, 0x2D#8, 0b11001000#8] = .ok (.cvtps2pi plain 1 (.reg 0)) [] := by
  decide

theorem test_decode_row23 : decode true [0xF2#8, 0x0F#8, 0x2D#8, 0b11000000#8] = .ok (.cvtsd2si32 plain 0 (.reg 0)) [] := by
  decide

theorem test_decode_row24 : decode true [0xF2#8, 0b01001000#8, 0x0F#8, 0x2D#8, 0b11000000#8] = .ok (.cvtsd2si64 rexed 0 (.reg 0)) [] := by
  decide

theorem test_decode_row24_rex_r : decode true [0xF2#8, 0b01001100#8, 0x0F#8, 0x2D#8, 0b11000000#8] = .ok (.cvtsd2si64 rexed 8 (.reg 0)) [] := by
  decide

theorem test_decode_row25 : decode true [0xC5#8, 0b11111011#8, 0x2D#8, 0b11000001#8] = .ok (.vcvtsd2si32 vex2 0 (.reg 1)) [] := by
  decide

theorem test_decode_row25_l_ignored : decode true [0xC5#8, 0b11111111#8, 0x2D#8, 0b11000001#8] = .ok (.vcvtsd2si32 vex2 0 (.reg 1)) [] := by
  decide

theorem test_decode_row26 : decode true [0xC4#8, 0b11100001#8, 0b11111011#8, 0x2D#8, 0b11000001#8] = .ok (.vcvtsd2si64 vex3 0 (.reg 1)) [] := by
  decide

theorem test_decode_rip_relative : decode true [0xF3#8, 0x0F#8, 0xE6#8, 0b00000101#8, 0x00#8, 0x01#8, 0x00#8, 0x00#8] = .ok (.cvtdq2pd plain 0 (.mem (.ripRel 0x100))) [] := by
  decide

theorem test_decode_fs_override : decode true [0x64#8, 0xF3#8, 0x0F#8, 0xE6#8, 0b00000000#8] = .ok (.cvtdq2pd ⟨some .fs, false, false⟩ 0 (.mem atRax)) [] := by
  decide

theorem test_decode_row26_bytes_outside_64_bit :
    decode false [0xC4#8, 0xE1#8, 0xFB#8, 0x2D#8, 0xC1#8] = .ok (.vcvtsd2si32 vex3 0 (.reg 1)) [] := by
  decide

theorem test_decode_vex_outside_64_bit :
    decode false [0xC5#8, 0xFA#8, 0xE6#8, 0xC1#8] = .ok (.vcvtdq2pd128 vex2 0 (.reg 1)) [] := by
  decide

theorem test_decode_rejects_vvvv : decode true [0xC5#8, 0xF2#8, 0xE6#8, 0xC1#8] = .invalidOpcode := by
  decide

theorem test_decode_rejects_lock : decode true [0xF0#8, 0xF3#8, 0x0F#8, 0xE6#8, 0x00#8] = .invalidOpcode := by
  decide

theorem test_decode_rejects_operand_size_before_vex : decode true [0x66#8, 0xC5#8, 0xFA#8, 0xE6#8, 0xC1#8] = .invalidOpcode := by
  decide

theorem test_decode_rejects_rex_before_vex : decode true [0x48#8, 0xC5#8, 0xFA#8, 0xE6#8, 0xC1#8] = .invalidOpcode := by
  decide

theorem test_decode_rejects_two_mandatory : decode true [0x66#8, 0xF2#8, 0x0F#8, 0xE6#8, 0xC0#8] = .refused .severalMandatoryPrefixes := by
  decide

theorem test_decode_rejects_two_segments : decode true [0x64#8, 0x65#8, 0x0F#8, 0x5B#8, 0xC0#8] = .refused .severalSegmentPrefixes := by
  decide

theorem test_decode_rejects_two_address_sizes : decode true [0x67#8, 0x67#8, 0x0F#8, 0x5B#8, 0xC0#8] = .refused .severalAddressSizePrefixes := by
  decide

theorem test_decode_rejects_rex_not_last : decode true [0x48#8, 0xF2#8, 0x0F#8, 0x2D#8, 0xC0#8] = .refused .rexNotLast := by
  decide

theorem test_decode_rejects_lds_outside_64_bit : decode false [0xC5#8, 0x7A#8, 0xE6#8, 0xC1#8] = .refused .lesOrLds := by
  decide

theorem test_decode_rejects_address_size_outside_64_bit : decode false [0x67#8, 0x0F#8, 0x5B#8, 0x00#8] = .refused .addressSize16 := by
  decide

theorem test_decode_rejects_vex_map_2 : decode true [0xC4#8, 0xE2#8, 0x7A#8, 0xE6#8, 0xC1#8] = .refused .notInSpec := by
  decide

theorem test_decode_rejects_cut_short : decode true [0xF3#8, 0x0F#8, 0xE6#8] = .short := by
  decide

theorem test_decode_rejects_cut_short_before_opcode : decode true [0x66#8, 0xC5#8, 0xFA#8] = .short := by
  decide

theorem test_decode_rejects_row_24_outside_64_bit : decode false [0xF2#8, 0x48#8, 0x0F#8, 0x2D#8, 0xC0#8] = .refused .notInSpec := by
  decide

/-! ### Execution: the examples of the instruction rules (R181 to R253) and `95_test_vectors.md` 3.8, 3.9 -/

theorem test_cvtdq2pd_example :
    let t := after (exec (.cvtdq2pd plain 0 (.reg 1))
      ((launched.writeYmm 0 0xAB00000000000000000000000000000000#256).writeYmm 1 0xFFFFFFFF00000001#256))
    t.ymm[0] = 0xABBFF00000000000003FF0000000000000#256 ∧ t.mxcsr = 0x1F80#32 := by decide +kernel

theorem test_cvtdq2pd_source_is_destination :
    let t := after (exec (.cvtdq2pd plain 1 (.reg 1))
      (launched.writeYmm 1 0xAAAAAAAAAAAAAAAABBBBBBBBBBBBBBBBCCCCCCCCCCCCCCCCDDDDDDDDDDDDDDDD#256))
    t.ymm[1] = 0xAAAAAAAAAAAAAAAABBBBBBBBBBBBBBBBC1C1111111800000C1C1111111800000#256 ∧ t.mxcsr = 0x1F80#32 := by decide +kernel

theorem test_vcvtdq2pd128_example :
    let t := after (exec (.vcvtdq2pd128 vex2 0 (.reg 1))
      ((launched.writeYmm 0 0xAAAAAAAAAAAAAAAABBBBBBBBBBBBBBBBCCCCCCCCCCCCCCCCDDDDDDDDDDDDDDDD#256).writeYmm 1 0x7FFFFFFF80000000#256))
    t.ymm[0] = 0x41DFFFFFFFC00000C1E0000000000000#256 ∧ t.mxcsr = 0x1F80#32 := by decide +kernel

theorem test_vcvtdq2pd256_example :
    let t := after (exec (.vcvtdq2pd256 vex2 0 (.mem (.based 3 (.disp8 0x10))))
      { launched with mem := [(0x10, 1), (0x14, 2), (0x18, 0xFE), (0x19, 0xFF), (0x1A, 0xFF), (0x1B, 0xFF), (0x1C, 100)] })
    t.ymm[0] = 0x4059000000000000C00000000000000040000000000000003FF0000000000000#256 ∧ t.mxcsr = 0x1F80#32 := by decide +kernel

theorem test_cvtdq2ps_example :
    let t := after (exec (.cvtdq2ps plain 0 (.reg 1))
      (launched.writeYmm 1 0x7FFFFFFF01000001FFFFFFFF00000001#256))
    t.ymm[0] = 0x4F0000004B800000BF8000003F800000#256 ∧ t.mxcsr = 0x1FA0#32 := by decide +kernel

theorem test_vcvtdq2ps128_example :
    let t := after (exec (.vcvtdq2ps128 vex2 0 (.reg 1))
      { ((launched.writeYmm 0 0xAAAAAAAAAAAAAAAABBBBBBBBBBBBBBBBCCCCCCCCCCCCCCCCDDDDDDDDDDDDDDDD#256).writeYmm 1 0x800000017FFFFFFF0100000300000000#256) with mxcsr := 0x7F80#32 })
    t.ymm[0] = 0xCEFFFFFF4EFFFFFF4B80000100000000#256 ∧ t.mxcsr = 0x7FA0#32 := by decide +kernel

theorem test_vcvtdq2ps256_example :
    let t := after (exec (.vcvtdq2ps256 vex2 0 (.reg 1))
      (launched.writeYmm 1 0x700000006000000050000000400000003000000020000000100000000#256))
    t.ymm[0] = 0x40E0000040C0000040A000004080000040400000400000003F80000000000000#256 ∧ t.mxcsr = 0x1F80#32 := by decide +kernel

theorem test_cvtpd2dq_example :
    let t := after (exec (.cvtpd2dq plain 2 (.reg 1))
      ((launched.writeYmm 2 0xAAAAAAAAAAAAAAAABBBBBBBBBBBBBBBBCCCCCCCCCCCCCCCCDDDDDDDDDDDDDDDD#256).writeYmm 1 0x41E00000000000004004000000000000#256))
    t.ymm[2] = 0xAAAAAAAAAAAAAAAABBBBBBBBBBBBBBBB00000000000000008000000000000002#256 ∧ t.mxcsr = 0x1FA1#32 := by decide +kernel

theorem test_vcvtpd2dq128_example :
    let t := after (exec (.vcvtpd2dq128 vex2 0 (.reg 1))
      { ((launched.writeYmm 0 0xAAAAAAAAAAAAAAAABBBBBBBBBBBBBBBBCCCCCCCCCCCCCCCCDDDDDDDDDDDDDDDD#256).writeYmm 1 0xBFE0000000000000400D99999999999A#256) with mxcsr := 0x3F80#32 })
    t.ymm[0] = 0xFFFFFFFF00000003#256 ∧ t.mxcsr = 0x3FA0#32 := by decide +kernel

theorem test_vcvtpd2dq256_example :
    let t := after (exec (.vcvtpd2dq256 vex2 0 (.reg 1))
      ((launched.writeYmm 0 0xAAAAAAAAAAAAAAAABBBBBBBBBBBBBBBBCCCCCCCCCCCCCCCCDDDDDDDDDDDDDDDD#256).writeYmm 1 0xC1E000000000000041DFFFFFFFC00000BFF80000000000003FF8000000000000#256))
    t.ymm[0] = 0x800000007FFFFFFFFFFFFFFE00000002#256 ∧ t.mxcsr = 0x1FA0#32 := by decide +kernel

theorem test_cvtpd2pi_example :
    let t := after (exec (.cvtpd2pi plain 2 (.reg 0))
      { (launched.writeYmm 0 0xC0040000000000003FF8000000000000#256) with x87Top := 5, x87Tag := 0xFFFF })
    t.x87[2] = 0xFFFFFFFFFFFE00000002#80 ∧ t.mxcsr = 0x1FA0#32 ∧ t.x87Top = 0 ∧ t.x87Tag = 0 := by decide +kernel

theorem test_cvtpd2ps_example :
    let t := after (exec (.cvtpd2ps plain 1 (.reg 0))
      (launched.writeYmm 0 0x47F00000000000003FB999999999999A#256))
    t.ymm[1] = 0x7F8000003DCCCCCD#256 ∧ t.mxcsr = 0x1FA8#32 := by decide +kernel

theorem test_vcvtpd2ps128_example :
    let t := after (exec (.vcvtpd2ps128 vex2 1 (.reg 0))
      { ((launched.writeYmm 1 0xAAAAAAAAAAAAAAAABBBBBBBBBBBBBBBBCCCCCCCCCCCCCCCCDDDDDDDDDDDDDDDD#256).writeYmm 0 0x400921FB54442D18BFF000001AD7F29B#256) with mxcsr := 0x7F80#32 })
    t.ymm[1] = 0x40490FDABF800000#256 ∧ t.mxcsr = 0x7FA0#32 := by decide +kernel

theorem test_vcvtpd2ps256_example :
    let t := after (exec (.vcvtpd2ps256 vex2 1 (.reg 0))
      ((launched.writeYmm 1 0xAAAAAAAAAAAAAAAABBBBBBBBBBBBBBBBCCCCCCCCCCCCCCCCDDDDDDDDDDDDDDDD#256).writeYmm 0 0x4059000000000000C00000000000000040000000000000003FF0000000000000#256))
    t.ymm[1] = 0x42C80000C0000000400000003F800000#256 ∧ t.mxcsr = 0x1F80#32 := by decide +kernel

theorem test_cvtpi2pd_register_example :
    (after (exec (.cvtpi2pd plain 0 (.reg 1)) { (launched.writeMm 1 0xFFFFFFFE00000064#64) with x87Top := 3, x87Tag := 0xFFFF })).ymm[0] =
      0xC0000000000000004059000000000000#256 ∧
    (after (exec (.cvtpi2pd plain 0 (.reg 1)) { (launched.writeMm 1 0xFFFFFFFE00000064#64) with x87Top := 3, x87Tag := 0xFFFF })).x87Tag = 0 := by
  decide +kernel

theorem test_cvtpi2pd_memory_example :
    (after (exec (.cvtpi2pd plain 0 (.mem atRax)) { launched with x87Top := 3, x87Pending := true, mem := [(0, 100)] })).ymm[0] =
      0x00000000000000004059000000000000#256 ∧
    (after (exec (.cvtpi2pd plain 0 (.mem atRax)) { launched with x87Top := 3, x87Pending := true, mem := [(0, 100)] })).x87Top =
      3 := by
  decide +kernel

theorem test_cvtpi2ps_example :
    (after (exec (.cvtpi2ps plain 3 (.reg 0)) ((launched.writeYmm 3 0x11111111222222223333333344444444#256).writeMm 0 0x1000003FFFFFFFF#64))).ymm[3] =
      0x11111111222222224B800002BF800000#256 ∧
    (after (exec (.cvtpi2ps plain 3 (.reg 0)) ((launched.writeYmm 3 0x11111111222222223333333344444444#256).writeMm 0 0x1000003FFFFFFFF#64))).x87Tag =
      0 := by
  decide +kernel

theorem test_cvtps2dq_example :
    let t := after (exec (.cvtps2dq plain 1 (.reg 0))
      (launched.writeYmm 0 0x4EFFFFFF4F000000C02000003FC00000#256))
    t.ymm[1] = 0x7FFFFF8080000000FFFFFFFE00000002#256 ∧ t.mxcsr = 0x1FA1#32 := by decide +kernel

theorem test_vcvtps2dq128_example :
    let t := after (exec (.vcvtps2dq128 vex2 1 (.reg 0))
      { ((launched.writeYmm 1 0xAAAAAAAAAAAAAAAABBBBBBBBBBBBBBBBCCCCCCCCCCCCCCCCDDDDDDDDDDDDDDDD#256).writeYmm 0 0x7FC0000000000001BF0000003F000000#256) with mxcsr := 0x5F80#32 })
    t.ymm[1] = 0x80000000000000010000000000000001#256 ∧ t.mxcsr = 0x5FA1#32 := by decide +kernel

theorem test_vcvtps2dq256_example :
    let t := after (exec (.vcvtps2dq256 vex2 1 (.reg 0))
      { (launched.writeYmm 0 0x80000001BF8000003F800000CF0000004A8000014B000001BFC0000040490FDB#256) with mxcsr := 0x7F80#32 })
    t.ymm[1] = 0xFFFFFFFF00000001800000000040000000800001FFFFFFFF00000003#256 ∧ t.mxcsr = 0x7FA0#32 := by decide +kernel

theorem test_cvtps2pd_example :
    let t := after (exec (.cvtps2pd plain 1 (.reg 0))
      ((launched.writeYmm 1 0xAAAAAAAAAAAAAAAABBBBBBBBBBBBBBBBCCCCCCCCCCCCCCCCDDDDDDDDDDDDDDDD#256).writeYmm 0 0x13DCCCCCD#256))
    t.ymm[1] = 0xAAAAAAAAAAAAAAAABBBBBBBBBBBBBBBB36A00000000000003FB99999A0000000#256 ∧ t.mxcsr = 0x1F82#32 := by decide +kernel

theorem test_vcvtps2pd128_example :
    let t := after (exec (.vcvtps2pd128 vex2 1 (.reg 0))
      ((launched.writeYmm 1 0xAAAAAAAAAAAAAAAABBBBBBBBBBBBBBBBCCCCCCCCCCCCCCCCDDDDDDDDDDDDDDDD#256).writeYmm 0 0x7F800001FFC00001#256))
    t.ymm[1] = 0x7FF8000020000000FFF8000020000000#256 ∧ t.mxcsr = 0x1F81#32 := by decide +kernel

theorem test_vcvtps2pd256_example :
    let t := after (exec (.vcvtps2pd256 vex2 2 (.reg 1))
      (launched.writeYmm 1 0x7F7FFFFF00800000C0490FDB3F800000#256))
    t.ymm[2] = 0x47EFFFFFE00000003810000000000000C00921FB600000003FF0000000000000#256 ∧ t.mxcsr = 0x1F80#32 := by decide +kernel

theorem test_cvtps2pi_example :
    let t := after (exec (.cvtps2pi plain 1 (.reg 0))
      (launched.writeYmm 0 0xC020000040200000#256))
    t.x87[1] = 0xFFFFFFFFFFFE00000002#80 ∧ t.mxcsr = 0x1FA0#32 ∧ t.x87Top = 0 ∧ t.x87Tag = 0 := by decide +kernel

theorem test_cvtsd2si32_example :
    let t := after (exec (.cvtsd2si32 plain 0 (.reg 0))
      ((launched.writeYmm 0 0x400D99999999999A#256).writeGpr64 0 0xFFFFFFFFFFFFFFFF#64))
    t.gpr[0] = 0x4#64 ∧ t.mxcsr = 0x1FA0#32 := by decide +kernel

theorem test_cvtsd2si32_indefinite :
    let t := after (exec (.cvtsd2si32 plain 0 (.reg 0))
      ((launched.writeYmm 0 0x41E0000000000000#256).writeGpr64 0 0xFFFFFFFFFFFFFFFF#64))
    t.gpr[0] = 0x80000000#64 ∧ t.mxcsr = 0x1F81#32 := by decide +kernel

theorem test_cvtsd2si64_example :
    let t := after (exec (.cvtsd2si64 rexed 0 (.reg 0))
      { (launched.writeYmm 0 0xC002000000000000#256) with mxcsr := 0x3F80#32 })
    t.gpr[0] = 0xFFFFFFFFFFFFFFFD#64 ∧ t.mxcsr = 0x3FA0#32 := by decide +kernel

theorem test_cvtsd2si64_doubleword_overflow :
    let t := after (exec (.cvtsd2si64 rexed 0 (.reg 0))
      (launched.writeYmm 0 0x41E0000000000000#256))
    t.gpr[0] = 0x80000000#64 ∧ t.mxcsr = 0x1F80#32 := by decide +kernel

theorem test_vcvtsd2si32_example :
    let t := after (exec (.vcvtsd2si32 vex2 0 (.reg 1))
      { (launched.writeYmm 1 0xC002000000000000#256) with mxcsr := 0x7F80#32 })
    t.gpr[0] = 0xFFFFFFFE#64 ∧ t.mxcsr = 0x7FA0#32 := by decide +kernel

theorem test_vcvtsd2si64_example :
    let t := after (exec (.vcvtsd2si64 vex3 0 (.reg 1))
      (launched.writeYmm 1 0x43ABC16D674EC800#256))
    t.gpr[0] = 0xDE0B6B3A7640000#64 ∧ t.mxcsr = 0x1F80#32 := by decide +kernel

theorem test_fault_misaligned_legacy_m128 :
    faultOf (exec (.cvtdq2ps plain 0 (.mem atRax)) (launched.writeGpr64 0 0x1008#64)) = some .generalProtection := by decide +kernel

theorem test_misaligned_vex_m128_completes : isNext (exec (.vcvtdq2ps128 vex2 0 (.mem atRax)) (launched.writeGpr64 0 0x1008#64)) = true := by
  decide +kernel

theorem test_fault_unmasked_invalid :
    faultOf (exec (.cvtsd2si32 plain 0 (.reg 0)) { (launched.writeYmm 0 0x7FF8000000000000#256) with mxcsr := 0x1F00#32 }) = some .simdFloatingPoint := by decide +kernel

theorem test_fault_unmasked_invalid_without_osxmmexcpt :
    faultOf (exec (.cvtsd2si32 plain 0 (.reg 0)) { (launched.writeYmm 0 0x7FF8000000000000#256) with mxcsr := 0x1F00#32, cr4 := 0x00040200#32 }) = some .invalidOpcodeSimd := by decide +kernel

theorem test_fault_unmasked_precision_in_one_lane :
    faultOf (exec (.cvtdq2ps plain 0 (.reg 1)) { (launched.writeYmm 1 0x101000001#256) with mxcsr := 0xF80#32 }) = some .simdFloatingPoint := by decide +kernel

theorem test_fault_unmasked_exact_underflow :
    faultOf (exec (.cvtpd2ps plain 0 (.reg 1)) { (launched.writeYmm 1 0x37F0000000000000#256) with mxcsr := 0x1780#32 }) = some .simdFloatingPoint := by decide +kernel

theorem test_fault_pending_x87 :
    faultOf (exec (.cvtpi2ps plain 0 (.mem atRax)) { launched with x87Pending := true }) = some .x87FloatingPoint := by decide +kernel

theorem test_fault_em_before_ts :
    faultOf (exec (.cvtdq2pd plain 0 (.reg 1)) { launched with cr0 := 0x6000003C#32 }) = some .invalidOpcode := by decide +kernel

theorem test_fault_ts_before_memory :
    faultOf (exec (.cvtdq2pd plain 0 (.mem atRax)) { launched with cr0 := 0x60000038#32, loadMap := [] }) = some .deviceNotAvailable := by decide +kernel

theorem test_fault_load_not_admitted :
    faultOf (exec (.cvtdq2pd plain 0 (.mem atRax)) { launched with cpl := 3, loadMap := [⟨0, 4, .granted⟩] }) = some (.pageFault 4#32 4#64) := by decide +kernel

theorem test_step_runs_placed_word : isNext (step (State.reset.withFetchWord 24 0x041E6)) = true := by decide +kernel

theorem test_step_past_the_text :
    faultOf (step (placeText launched [0xF3#8, 0x0F#8, 0xE6#8])) = some (.pageFault 0x10#32 0xFFF3#64) := by decide +kernel

/-! ### Witnesses: for each statement with hypotheses, states and operands that meet them, clause by clause -/

/-- The launched machine with `bytes` as program text at `pc`. -/
def loaded (bytes : List Byte) : State := placeText launched bytes
/-- The same outside 64-bit mode. -/
def loaded32 (bytes : List Byte) : State := placeText launched32 bytes

/-- Are the bytes the text at `pc`? `TextAt`, decidable. -/
def textAt (s : State) (bytes : List Byte) : Bool :=
  decide (s.pc.toNat + bytes.length ≤ s.addressLimit) &&
  (List.range bytes.length).all fun k =>
    decide (Admission.answer s.fetchMap (s.pc.toNat + k) = .granted) &&
    decide (bytes[k]? = some (s.mem.read (s.pc.toNat + k)))

theorem textAt_of {s : State} {bytes : List Byte} (h : textAt s bytes = true) : TextAt s bytes := by
  simp only [textAt, Bool.and_eq_true, decide_eq_true_eq, List.all_eq_true, List.mem_range] at h
  refine ⟨h.1, fun k hk => ⟨(h.2 k hk).1, ?_⟩⟩
  have := (h.2 k hk).2
  rw [List.getElem?_eq_getElem hk] at this
  exact (Option.some.inj this).symm

/-- With MXCSR = 1F80H every flag is masked. -/
theorem masked_of_1f80 {s : State} (h : s.mxcsr = 0x00001F80#32) (f : FpFlags) : Masked s f := by
  constructor <;> intro _ <;> rw [h] <;> decide

/-- With MXCSR = 0 no flag is masked. -/
theorem not_masked_of_precision {s : State} (h : s.mxcsr = 0#32) {f : FpFlags} (hf : f.precision = true) :
    ¬ Masked s f := fun m => by simpa [h] using m.precision hf
theorem not_masked_of_invalid {s : State} (h : s.mxcsr = 0#32) {f : FpFlags} (hf : f.invalid = true) :
    ¬ Masked s f := fun m => by simpa [h] using m.invalid hf

/-- The launched machine with MXCSR = 0: every SIMD exception unmasked. -/
def unmaskedState : State := { launched with mxcsr := 0#32 }

theorem unmasked_ready : LegacyReady unmaskedState true := ⟨rfl, rfl, rfl, .inl rfl, rfl⟩
theorem unmasked_vexReady : VexReady unmaskedState := ⟨rfl, rfl, rfl, .inl rfl, rfl⟩

theorem test_witness_DecodeOfEncodeIsTheInstruction :
    (Instr.cvtdq2pd rexed 15 (.reg 15)).wf true = true ∧ (Instr.vcvtdq2pd128 vex2 7 (.reg 7)).wf false = true ∧
    (Instr.cvtsd2si64 ⟨some .gs, true, true⟩ 15 (.mem (.sib 13 (some (12, .x8)) (.disp32 0x80000000)))).wf true = true := by
  decide

theorem test_witness_DecodedInstructionIsWellFormedAndIlenLong :
    decode true [0x0F#8, 0x5B#8, 0xC1#8] = .ok (.cvtdq2ps plain 0 (.reg 1)) [] ∧
    decode true
        [0x65#8, 0x67#8, 0xF2#8, 0x4F#8, 0x0F#8, 0x2D#8, 0xBC#8, 0xE5#8, 0x00#8, 0x00#8, 0x00#8, 0x80#8, 0x90#8] =
      .ok (.cvtsd2si64 ⟨some .gs, true, true⟩ 15 (.mem (.sib 13 (some (12, .x8)) (.disp32 0x80000000)))) [0x90#8] ∧
    (Instr.cvtsd2si64 ⟨some .gs, true, true⟩ 15 (.mem (.sib 13 (some (12, .x8)) (.disp32 0x80000000)))).len = 12 := by
  decide

theorem test_witness_OpcodeRowsAreDisjoint :
    0x37DAB#18 &&& Form.mask .vcvtsd2si64 ≠ Form.bits .vcvtsd2si64 ∧
    0x3E12D#18 &&& Form.mask .vcvtsd2si64 = Form.bits .vcvtsd2si64 := by decide

/-- The three spellings in which a wrong `vvvv` makes a VEX form: 64-bit `C5` (`vvvv = 14` and 0), `C4` outside 64-bit mode
(`vvvv = 0`), and `C5` outside 64-bit mode, whose `vvvv` top bit is then 1 (`vvvv = 8`). -/
theorem test_witness_VexVvvvOtherThanOnesRaisesInvalidOpcode :
    (vexShape (.vcvtdq2pd128 vex2 0 (.reg 1)) = true ∧ (Instr.vcvtdq2pd128 vex2 0 (.reg 1)).wf true = true ∧
      TextAt (loaded [0xC5#8, 0xF2#8, 0xE6#8, 0xC1#8]) (vexBytesStored (.vcvtdq2pd128 vex2 0 (.reg 1)) 14) ∧
      TextAt (loaded [0xC5#8, 0x82#8, 0xE6#8, 0xC1#8]) (vexBytesStored (.vcvtdq2pd128 vex2 0 (.reg 1)) 0)) ∧
    ((Instr.vcvtdq2pd128 vex3 0 (.reg 1)).wf false = true ∧ (Instr.vcvtdq2pd128 vex3 0 (.reg 1)).fields.ext = true ∧
      TextAt (loaded32 [0xC4#8, 0xE1#8, 0x02#8, 0xE6#8, 0xC1#8]) (vexBytesStored (.vcvtdq2pd128 vex3 0 (.reg 1)) 0)) ∧
    ((Instr.vcvtdq2pd128 vex2 0 (.reg 1)).wf false = true ∧
      TextAt (loaded32 [0xC5#8, 0xC2#8, 0xE6#8, 0xC1#8]) (vexBytesStored (.vcvtdq2pd128 vex2 0 (.reg 1)) 8)) :=
  ⟨⟨by decide, by decide, textAt_of (by decide +kernel), textAt_of (by decide +kernel)⟩,
    ⟨by decide, by decide, textAt_of (by decide +kernel)⟩, by decide, textAt_of (by decide +kernel)⟩

theorem test_witness_LockPrefixRaisesInvalidOpcode :
    (encode (.cvtdq2pd plain 0 (.reg 1)) = [] ++ [0xF3#8, 0x0F#8, 0xE6#8, 0xC1#8] ∧
      TextAt (loaded [0xF0#8, 0xF3#8, 0x0F#8, 0xE6#8, 0xC1#8]) ([] ++ 0xF0#8 :: [0xF3#8, 0x0F#8, 0xE6#8, 0xC1#8])) ∧
    (encode (.cvtdq2pd ⟨some .fs, true, false⟩ 0 (.mem atRax)) =
        [0x64#8, 0x67#8, 0xF3#8] ++ [0x0F#8, 0xE6#8, 0x00#8] ∧
      (∀ b ∈ [0x64#8, 0x67#8, 0xF3#8], isPrefixByte b = true) ∧
      TextAt (loaded [0x64#8, 0x67#8, 0xF3#8, 0xF0#8, 0x0F#8, 0xE6#8, 0x00#8])
        ([0x64#8, 0x67#8, 0xF3#8] ++ 0xF0#8 :: [0x0F#8, 0xE6#8, 0x00#8])) :=
  ⟨⟨by decide, textAt_of (by decide +kernel)⟩, by decide, by decide, textAt_of (by decide +kernel)⟩

theorem test_witness_VexPrefixMustComeLast :
    (encode (.vcvtdq2pd128 ⟨some .gs, false, false⟩ 0 (.mem atRax)) = [0x65#8] ++ [0xC5#8, 0xFA#8, 0xE6#8, 0x00#8] ∧
      isMandatoryByte 0x66#8 = true ∧
      TextAt (loaded [0x65#8, 0x66#8, 0xC5#8, 0xFA#8, 0xE6#8, 0x00#8])
        ([0x65#8] ++ 0x66#8 :: [0xC5#8, 0xFA#8, 0xE6#8, 0x00#8]) ∧
      TextAt (loaded [0x65#8, 0xF0#8, 0xC5#8, 0xFA#8, 0xE6#8, 0x00#8])
        ([0x65#8] ++ 0xF0#8 :: [0xC5#8, 0xFA#8, 0xE6#8, 0x00#8])) ∧
    (isRexByte 0x40#8 = true ∧ isRexByte 0x4F#8 = true ∧
      TextAt (loaded [0x65#8, 0x4F#8, 0xC5#8, 0xFA#8, 0xE6#8, 0x00#8])
        ([0x65#8] ++ 0x4F#8 :: [0xC5#8, 0xFA#8, 0xE6#8, 0x00#8])) ∧
    TextAt (loaded [0x65#8, 0xC5#8, 0xFA#8, 0xE6#8, 0x00#8])
      (encode (.vcvtdq2pd128 ⟨some .gs, false, false⟩ 0 (.mem atRax))) :=
  ⟨⟨by decide, by decide, textAt_of (by decide +kernel), textAt_of (by decide +kernel)⟩,
    ⟨by decide, by decide, textAt_of (by decide +kernel)⟩, textAt_of (by decide +kernel)⟩

theorem test_witness_ConflictingPrefixesAreRefused :
    2 ≤ ([0x66#8, 0x64#8, 0xF3#8].filter isMandatoryByte).length ∧
    2 ≤ ([0x64#8, 0x64#8].filter isSegmentByte).length ∧ 2 ≤ [0x67#8, 0x67#8].count 0x67#8 ∧
    (∀ b ∈ [0x66#8, 0x64#8, 0xF3#8, 0x67#8], isPrefixByte b = true) ∧
    (isRexByte 0x48#8 = true ∧ isPrefixByte 0xF2#8 = true) ∧
    decodeAt (loaded [0x66#8, 0xF2#8, 0x0F#8, 0xE6#8, 0xC0#8]) = .refused .severalMandatoryPrefixes := by
  refine ⟨by decide, by decide, by decide, by decide, by decide, by decide +kernel⟩

theorem test_witness_SixtyFourBitRowsOutside64BitMode :
    (vex3.three = true ∧ (Instr.vcvtsd2si32 vex3 0 (.reg 1)).wf false = true ∧
      (Instr.vcvtsd2si32 vex3 7 (.mem (.abs 0))).wf false = true) ∧
    ((Instr.cvtsd2si64 rexed 0 (.reg 0)).wf true = true ∧
      (Instr.cvtsd2si64 ⟨some .fs, true, true⟩ 15 (.mem atRax)).wf true = true ∧ launched32.mode = .bits32 ∧
      TextAt (loaded32 [0xF2#8, 0x48#8, 0x0F#8, 0x2D#8, 0xC0#8]) (encode (.cvtsd2si64 rexed 0 (.reg 0)))) :=
  ⟨by decide, by decide, by decide, rfl, textAt_of (by decide +kernel)⟩

/-- Bits that a form ignores: `W` of a form without a general destination, `L` and `X` of one with it. -/
theorem test_witness_IgnoredEncodingBitsChangeNothing_vex :
    decode true [0x64#8, 0xC4#8, 0x41#8, 0x7A#8, 0xE6#8, 0xC1#8] =
      .ok (.vcvtdq2pd128 ⟨some .fs, false, true⟩ 8 (.reg 9)) [] ∧
    decode true [0xC4#8, 0xE1#8, 0xFB#8, 0x2D#8, 0xC1#8] = .ok (.vcvtsd2si64 vex3 0 (.reg 1)) [] ∧
    decode true [0xC5#8, 0xFB#8, 0x2D#8, 0xC1#8] = .ok (.vcvtsd2si32 vex2 0 (.reg 1)) [] ∧
    gprDestination (.vcvtdq2pd128 vex3 8 (.reg 9)) = none ∧ (gprDestination (.vcvtsd2si64 vex3 0 (.reg 1))).isSome = true ∧
    (gprDestination (.vcvtsd2si32 vex2 0 (.reg 1))).isSome = true ∧ hasSib (.reg 9) = false := by decide

theorem test_witness_IgnoredEncodingBitsChangeNothing_rex :
    decode true [0xF3#8, 0x40#8, 0x0F#8, 0xE6#8, 0xC1#8] = .ok (.cvtdq2pd rexed 0 (.reg 1)) [] ∧
    gprDestination (.cvtdq2pd rexed 0 (.reg 1)) = none ∧
    decode true [0x66#8, 0x4F#8, 0x0F#8, 0x2D#8, 0xC1#8] = .ok (.cvtpd2pi rexed 0 (.reg 9)) [] ∧
    (mmxDestination (.cvtpd2pi rexed 0 (.reg 9))).isSome = true ∧
    decode true [0x66#8, 0x40#8, 0x0F#8, 0x2A#8, 0xC1#8] = .ok (.cvtpi2pd rexed 0 (.reg 1)) [] ∧
    decode true [0x40#8, 0x0F#8, 0x2A#8, 0xC7#8] = .ok (.cvtpi2ps rexed 0 (.reg 7)) [] ∧
    launched.mode64 = true ∧ (Seg.cs ≠ .fs ∧ Seg.cs ≠ .gs) ∧ (Seg.es ≠ .fs ∧ Seg.es ≠ .gs) := by decide

/-! The step -/

theorem test_witness_StepRunsTheDecodedInstruction :
    decodeAt (loaded [0xF3#8, 0x0F#8, 0xE6#8, 0xC1#8]) = .ok (.cvtdq2pd plain 0 (.reg 1)) [] ∧
    decodeAt (loaded32 [0xF3#8, 0x0F#8, 0xE6#8, 0xC1#8]) = .ok (.cvtdq2pd plain 0 (.reg 1)) [] := by
  decide +kernel

theorem test_witness_StepRunsTheEncodedInstructionAtPc :
    TextAt (loaded [0xF3#8, 0x0F#8, 0xE6#8, 0xC1#8]) (encode (.cvtdq2pd plain 0 (.reg 1))) ∧
    TextAt (loaded32 [0xF3#8, 0x0F#8, 0xE6#8, 0xC1#8]) (encode (.cvtdq2pd plain 0 (.reg 1))) :=
  ⟨textAt_of (by decide +kernel), textAt_of (by decide +kernel)⟩

/-- The invariant holds of a launched machine with a program, and its step is a next state. -/
theorem test_witness_StepKeepsTheInvariant :
    (loaded [0xF3#8, 0x0F#8, 0xE6#8, 0xC1#8]).Inv ∧
    step (loaded [0xF3#8, 0x0F#8, 0xE6#8, 0xC1#8]) = .next (after (step (loaded [0xF3#8, 0x0F#8, 0xE6#8, 0xC1#8]))) ∧
    (loaded32 [0xF3#8, 0x0F#8, 0xE6#8, 0xC1#8]).Inv ∧
    step (loaded32 [0xF3#8, 0x0F#8, 0xE6#8, 0xC1#8]) = .next (after (step (loaded32 [0xF3#8, 0x0F#8, 0xE6#8, 0xC1#8]))) :=
  ⟨⟨by decide +kernel, by decide +kernel, by decide +kernel⟩, eq_next_of_isNext (by decide +kernel),
    ⟨by decide +kernel, by decide +kernel, by decide +kernel⟩, eq_next_of_isNext (by decide +kernel)⟩

theorem test_witness_StepChangesNoSystemStateAndNoMemory :
    step (loaded [0x0F#8, 0x5B#8, 0xC1#8]) = .next (after (step (loaded [0x0F#8, 0x5B#8, 0xC1#8]))) :=
  eq_next_of_isNext (by decide +kernel)

/-- Flags 0 and 5, the ends of the range, are already set, and the step raises precision again. -/
theorem test_witness_MxcsrFlagsAreStickyAndControlsKept :
    ((0x1FBF#32).getLsbD 0 = true ∧ (0x1FBF#32).getLsbD 5 = true) ∧
    step { loaded [0x0F#8, 0x5B#8, 0xC1#8] with mxcsr := 0x1FBF#32 } =
      .next (after (step { loaded [0x0F#8, 0x5B#8, 0xC1#8] with mxcsr := 0x1FBF#32 })) :=
  ⟨by decide, eq_next_of_isNext (by decide +kernel)⟩

theorem test_witness_ExactConversionsIgnoreMxcsr :
    exactForm (.cvtpi2pd plain 0 (.reg 1)) = true ∧
    isNext (exec (.cvtpi2pd plain 0 (.reg 1)) launched) = true ∧
    faultOf (exec (.cvtpi2pd plain 0 (.reg 1)) { launched with x87Pending := true }) = some .x87FloatingPoint ∧
    refusalOf (exec (.cvtpi2pd plain 0 (.reg 1)) { launched with x87Pending := true, cr0 := 0x60000010#32 }) =
      some .x87ReportedExternally := by decide +kernel

theorem test_witness_OnlyTheDestinationRegisterIsWritten :
    isNext (exec (.cvtdq2pd plain 15 (.reg 0)) launched) = true ∧ isNext (exec (.cvtps2pi plain 7 (.reg 0)) launched) = true ∧
    isNext (exec (.vcvtsd2si64 vex3 15 (.reg 0)) launched) = true := by decide +kernel

theorem test_witness_MmxTransitionExactlyWhereStated :
    (performsTransition (.cvtpi2ps plain 0 (.mem atRax)) = true ∧ isNext (exec (.cvtpi2ps plain 0 (.mem atRax)) launched) = true) ∧
    (performsTransition (.cvtpi2pd plain 0 (.mem atRax)) = false ∧
      isNext (exec (.cvtpi2pd plain 0 (.mem atRax)) launched) = true) := by decide +kernel

/-- `pc` at the last byte of the 64-bit space (`k = 1`), 14 bytes below its end (`k = 14`), and just above the 32-bit space
outside 64-bit mode (`k = 0`). -/
def nearTop (k : Nat) : State :=
  { launched with
    pc := BitVec.ofNat 64 (2 ^ 64 - k)
    mem := (List.range k).map fun j => (2 ^ 64 - k + j, 0xF0#8)
    fetchMap := [⟨2 ^ 64 - k, k, .granted⟩] }

theorem test_witness_StepMovesPcPastTheInstruction :
    isNext (step (loaded [0x0F#8, 0x5B#8, 0xC1#8])) = true ∧ isNext (step (loaded32 [0x0F#8, 0x5B#8, 0xC1#8])) = true ∧
    (∀ k ∈ [1, 14], (nearTop k).pc.toNat + k = (nearTop k).addressLimit ∧
      (∀ j, j < k → Admission.answer (nearTop k).fetchMap ((nearTop k).pc.toNat + j) = .granted) ∧
      decode (nearTop k).mode64 ((List.range k).map fun j => (nearTop k).mem.read ((nearTop k).pc.toNat + j)) = .short) ∧
    ({ launched32 with pc := 0x100000000#64 } : State).pc.toNat + 0 =
      ({ launched32 with pc := 0x100000000#64 } : State).addressLimit ∧ decode false [] = .short := by
  decide +kernel

/-- `pc + ilen` wraps: an instruction that ends at the top of either address space. -/
theorem test_pc_wraps :
    (after (exec (.cvtdq2ps plain 0 (.reg 1)) { launched with pc := 0xFFFFFFFFFFFFFFFD#64 })).pc = 0#64 ∧
    (after (exec (.cvtdq2ps plain 0 (.reg 1)) { launched32 with pc := 0xFFFFFFFD#64 })).pc = 0#64 := by decide +kernel

theorem test_witness_UpperBitsFollowTheEncoding :
    (vecDestination (.cvtdq2pd plain 15 (.reg 0)) = some 15 ∧ isNext (exec (.cvtdq2pd plain 15 (.reg 0)) launched) = true ∧
      vexShape (.cvtdq2pd plain 15 (.reg 0)) = false) ∧
    (isNext (exec (.vcvtdq2pd128 vex2 0 (.reg 1)) launched) = true ∧ vexShape (.vcvtdq2pd128 vex2 0 (.reg 1)) = true ∧
      (Instr.vcvtdq2pd128 vex2 0 (.reg 1)).fields.form.l = false ∧ (Instr.vcvtdq2pd128 vex2 0 (.reg 1)).fields.rm ≠ .reg 0 ∧
      isNext (exec (.vcvtdq2pd128 vex2 0 (.reg 1)) (launched.writeYmm 0 1#256)) = true) ∧
    (isNext (exec (.vcvtpd2dq256 vex2 0 (.reg 1)) launched) = true ∧ isNext (exec (.vcvtpd2ps256 vex2 0 (.reg 1)) launched) = true) := by
  decide +kernel

/-! Completion and faults -/

theorem launched_admitted {i : Instr} (h : Ready i launched) : Admitted i launched := ⟨h, fun _ => rfl⟩

/-- `[rax]` with RAX = `a`. -/
def pointing (a : Word) : State := launched.writeGpr64 0 a

theorem pointing_ready (a : Word) : LegacyReady (pointing a) true :=
  ⟨launched_ready.em, launched_ready.osfxsr, rfl, launched_ready.mode, launched_ready.ts⟩
theorem pointing_vexReady (a : Word) : VexReady (pointing a) :=
  ⟨launched_vexReady.osxsave, launched_vexReady.xcr0, rfl, launched_vexReady.mode, launched_vexReady.ts⟩

/-- A register form; a legacy `m128` form at an aligned address, its last byte at the end of the lower canonical half; a VEX
`m256` form. -/
theorem test_witness_AdmittedInstructionCompletesUnderMasks :
    launched.mxcsr.extractLsb' 7 6 = 63 ∧ Admitted (.cvtps2pi plain 7 (.reg 15)) launched ∧
    (Admitted (.cvtpd2dq plain 0 (.mem atRax)) (pointing 0x00007FFFFFFFFFF0#64) ∧
      memoryOperand (.cvtpd2dq plain 0 (.mem atRax)) = some atRax ∧
      InSegment (.cvtpd2dq plain 0 (.mem atRax)) atRax (pointing 0x00007FFFFFFFFFF0#64) ∧
      needsAlignment (.cvtpd2dq plain 0 (.mem atRax)) = true ∧
      (operandAddress (.cvtpd2dq plain 0 (.mem atRax)) atRax (pointing 0x00007FFFFFFFFFF0#64)).extractLsb' 0 4 = 0 ∧
      (∀ k, k < loadBytes (.cvtpd2dq plain 0 (.mem atRax)) →
        Admission.answer (pointing 0x00007FFFFFFFFFF0#64).loadMap
          (operandByte (.cvtpd2dq plain 0 (.mem atRax)) atRax (pointing 0x00007FFFFFFFFFF0#64) k).toNat = .granted) ∧
      ¬ ((pointing 0x00007FFFFFFFFFF0#64).am = true ∧ (pointing 0x00007FFFFFFFFFF0#64).ac = true ∧
        (pointing 0x00007FFFFFFFFFF0#64).cpl = 3)) ∧
    (Admitted (.vcvtps2dq256 vex2 0 (.mem atRax)) (pointing 1) ∧
      InSegment (.vcvtps2dq256 vex2 0 (.mem atRax)) atRax (pointing 1) ∧
      (∀ k, k < loadBytes (.vcvtps2dq256 vex2 0 (.mem atRax)) →
        Admission.answer (pointing 1).loadMap
          (operandByte (.vcvtps2dq256 vex2 0 (.mem atRax)) atRax (pointing 1) k).toNat = .granted)) :=
  ⟨by decide, launched_admitted launched_ready,
    ⟨⟨pointing_ready _, fun _ => rfl⟩, rfl, ⟨by decide +kernel, by decide +kernel⟩, rfl, by decide +kernel,
      by decide +kernel, by decide +kernel⟩,
    ⟨pointing_vexReady _, fun _ => rfl⟩, ⟨by decide +kernel, by decide +kernel⟩, by decide +kernel⟩

theorem test_witness_LegacyFormsNeedTheirEnables :
    vexShape (.cvtpi2ps plain 0 (.reg 0)) = false ∧ LegacyReady launched (legacyFeature (.cvtpi2ps plain 0 (.reg 0)) launched) ∧
    ({ launched with cr0 := 0x60000034#32 } : State).em = true ∧ ({ launched with cr4 := 0x00040400#32 } : State).osfxsr = false ∧
    legacyFeature (.cvtpi2ps plain 0 (.reg 0)) { launched with params := { Params.default with sse := false } } = false ∧
    legacyFeature (.cvtpi2pd plain 0 (.reg 0)) { launched with params := { Params.default with sse2 := false } } = false ∧
    Enabled (.cvtpi2ps plain 0 (.reg 0)) launched ∧
    Enabled (.cvtdq2pd plain 0 (.reg 0)) { launched32 with cr0 := 0x60000038#32 } :=
  ⟨rfl, launched_ready, by decide, by decide, rfl, rfl, ⟨.inl rfl, rfl, rfl, rfl⟩, ⟨.inr rfl, rfl, rfl, rfl⟩⟩

theorem test_witness_VexFormsNeedTheirEnables :
    vexShape (.vcvtdq2ps128 vex2 0 (.reg 0)) = true ∧ VexReady launched ∧
    ({ launched with cr4 := 0x00000600#32 } : State).osxsave = false ∧
    ((1#64).extractLsb' 1 2 ≠ 3#2 ∧ (3#64).extractLsb' 1 2 ≠ 3#2 ∧ (5#64).extractLsb' 1 2 ≠ 3#2) ∧
    ({ launched with params := { Params.default with avx := false } } : State).params.avx = false ∧
    ({ launched with mode := .virtual8086 } : State).mode = .virtual8086 ∧ State.reset.mode = .realAddress ∧
    Enabled (.vcvtdq2ps128 vex2 0 (.reg 0)) launched ∧
    Enabled (.vcvtdq2pd256 vex2 0 (.reg 0)) { launched32 with cr0 := 0x6000003C#32 } :=
  ⟨rfl, launched_vexReady, by decide, by decide +kernel, rfl, rfl, rfl, ⟨.inl rfl, rfl, rfl, rfl⟩, ⟨.inr rfl, rfl, rfl, rfl⟩⟩

theorem test_witness_TaskSwitchedRaisesDeviceNotAvailable :
    (Enabled (.cvtdq2pd plain 0 (.reg 0)) launched ∧ launched.ts = false) ∧
    (Enabled (.cvtdq2pd plain 0 (.reg 0)) { launched with cr0 := 0x60000038#32 } ∧
      Enabled (.vcvtdq2pd256 vex2 0 (.reg 0)) { launched with cr0 := 0x60000038#32 } ∧
      ({ launched with cr0 := 0x60000038#32 } : State).ts = true) :=
  ⟨⟨⟨.inl rfl, rfl, rfl, rfl⟩, rfl⟩, ⟨.inl rfl, rfl, rfl, rfl⟩, ⟨.inl rfl, rfl, rfl, rfl⟩, rfl⟩

theorem test_witness_PendingX87ExceptionRaisesFloatingPointError :
    (Ready (.cvtpi2pd plain 0 (.reg 7)) { launched with x87Pending := true } ∧
      performsTransition (.cvtpi2pd plain 0 (.reg 7)) = true ∧ ({ launched with x87Pending := true } : State).ne = true) ∧
    (Ready (.cvtps2pi plain 0 (.reg 7)) { launched with x87Pending := true, cr0 := 0x60000010#32 } ∧
      performsTransition (.cvtps2pi plain 0 (.reg 7)) = true ∧
      ({ launched with x87Pending := true, cr0 := 0x60000010#32 } : State).ne = false) ∧
    performsTransition (.cvtpi2pd plain 0 (.mem atRax)) = false :=
  ⟨⟨(⟨rfl, rfl, rfl, .inl rfl, rfl⟩ : LegacyReady _ true), rfl, rfl⟩,
    ⟨(⟨rfl, rfl, rfl, .inl rfl, rfl⟩ : LegacyReady _ true), rfl, rfl⟩, rfl⟩

/-- Misaligned by 1, by 15 and by 8, the last outside 64-bit mode. -/
theorem test_witness_MisalignedLegacyM128RaisesGeneralProtection :
    ((operandAddress (.cvtps2dq plain 0 (.mem atRax)) atRax (pointing 1)).extractLsb' 0 4 ≠ 0 ∧
      (operandAddress (.cvtps2dq plain 0 (.mem atRax)) atRax (pointing 15)).extractLsb' 0 4 ≠ 0 ∧
      needsAlignment (.cvtps2dq plain 0 (.mem atRax)) = true ∧
      memoryOperand (.cvtps2dq plain 0 (.mem atRax)) = some atRax) ∧
    Admitted (.cvtps2dq plain 0 (.mem atRax)) (pointing 1) ∧ InSegment (.cvtps2dq plain 0 (.mem atRax)) atRax (pointing 1) ∧
    Admitted (.cvtps2dq plain 0 (.mem atRax)) (pointing 15) ∧ InSegment (.cvtps2dq plain 0 (.mem atRax)) atRax (pointing 15) ∧
    (Admitted (.cvtpd2pi plain 0 (.mem (.abs 8))) launched32 ∧ InSegment (.cvtpd2pi plain 0 (.mem (.abs 8))) (.abs 8) launched32 ∧
      (operandAddress (.cvtpd2pi plain 0 (.mem (.abs 8))) (.abs 8) launched32).extractLsb' 0 4 ≠ 0) :=
  ⟨⟨by decide +kernel, by decide +kernel, rfl, rfl⟩,
    ⟨pointing_ready _, fun _ => rfl⟩, ⟨by decide +kernel, by decide +kernel⟩,
    ⟨pointing_ready _, fun _ => rfl⟩, ⟨by decide +kernel, by decide +kernel⟩,
    ⟨launched32_ready, fun _ => rfl⟩, ⟨by decide +kernel, by decide +kernel⟩, by decide +kernel⟩

/-- The memory operand `[rsp]`, which needs a SIB byte. -/
def atRsp : Sys2Proof.Mem := .sib 4 none .none

/-- The first and the last non-canonical address; the segment without and with an override, in and outside 64-bit mode. -/
theorem test_witness_NonCanonicalOperandRaisesSegmentFault :
    Admitted (.cvtsd2si32 plain 0 (.mem atRax)) (pointing 0x0000800000000000#64) ∧
    canonical 48 (operandAddress (.cvtsd2si32 plain 0 (.mem atRax)) atRax (pointing 0x0000800000000000#64)) = false ∧
    canonical 48 (operandAddress (.cvtsd2si32 plain 0 (.mem atRax)) atRax (pointing 0xFFFF7FFFFFFFFFFF#64)) = false ∧
    canonical 48 (operandAddress (.cvtsd2si32 plain 0 (.mem atRax)) atRax (pointing 0x00007FFFFFFFFFFF#64)) = true ∧
    canonical 48 (operandAddress (.cvtsd2si32 plain 0 (.mem atRax)) atRax (pointing 0xFFFF800000000000#64)) = true ∧
    operandSegment (.cvtsd2si32 plain 0 (.mem atRax)) atRax launched = .ds ∧
    operandSegment (.cvtsd2si32 ⟨some .ss, false, false⟩ 0 (.mem atRax)) atRax launched = .ds ∧
    operandSegment (.cvtsd2si32 ⟨some .ds, false, false⟩ 0 (.mem atRsp)) atRsp launched = .ss ∧
    operandSegment (.cvtsd2si32 ⟨some .gs, false, false⟩ 0 (.mem atRsp)) atRsp launched = .gs ∧
    operandSegment (.cvtsd2si32 ⟨some .ss, false, false⟩ 0 (.mem atRax)) atRax launched32 = .ss ∧
    operandSegment (.cvtsd2si32 plain 0 (.mem atRsp)) atRsp launched32 = .ss ∧
    (pointing 0x0000800000000000#64).mode64 = true ∧ (pointing 0x0000800000000000#64).params.linearAddressBits = 48 :=
  ⟨⟨pointing_ready _, fun _ => rfl⟩, by decide +kernel⟩

/-- `36 F2 0F 2D 00` and `3E F2 0F 2D 04 24` in 64-bit mode: the override counts for nothing (R121). -/
theorem test_fault_ignored_override :
    faultOf (exec (.cvtsd2si32 ⟨some .ss, false, false⟩ 0 (.mem atRax)) (pointing 0x0000800000000000#64)) =
      some .generalProtection ∧
    faultOf (exec (.cvtsd2si32 ⟨some .ds, false, false⟩ 0 (.mem atRsp))
      (launched.writeGpr64 4 0x0000800000000000#64)) = some .stackSegment := by decide +kernel

/-- Bytes 0 to 3 admitted, byte 4 and above answered by `ans`. -/
def partly (ans : Answer) : State := { launched with cpl := 3, loadMap := [⟨0, 4, .granted⟩, ⟨4, 2 ^ 64, ans⟩] }

/-- The first refused byte is byte 0 (nothing admitted), byte 4 and the last byte 7. -/
theorem test_witness_RefusedOperandByteFaults :
    (Admitted (.cvtdq2pd plain 0 (.mem atRax)) (partly .segmentFault) ∧
      Admission.answer (partly .segmentFault).loadMap
        (operandByte (.cvtdq2pd plain 0 (.mem atRax)) atRax (partly .segmentFault) 4).toNat = .segmentFault ∧
      Admission.answer (partly .segmentFault).loadMap
        (operandByte (.cvtdq2pd plain 0 (.mem atRax)) atRax (partly .segmentFault) 7).toNat = .segmentFault) ∧
    (Admitted (.cvtdq2pd plain 0 (.mem atRax)) (partly (.pageFault true false)) ∧
      InSegment (.cvtdq2pd plain 0 (.mem atRax)) atRax (partly (.pageFault true false)) ∧
      (∀ j, j < 4 → Admission.answer (partly (.pageFault true false)).loadMap
        (operandByte (.cvtdq2pd plain 0 (.mem atRax)) atRax (partly (.pageFault true false)) j).toNat = .granted) ∧
      Admission.answer (partly (.pageFault true false)).loadMap
        (operandByte (.cvtdq2pd plain 0 (.mem atRax)) atRax (partly (.pageFault true false)) 4).toNat = .pageFault true false) ∧
    (Admitted (.vcvtdq2pd128 vex2 0 (.mem atRax)) { launched with loadMap := [] } ∧
      InSegment (.vcvtdq2pd128 vex2 0 (.mem atRax)) atRax { launched with loadMap := [] } ∧
      Admission.answer ([] : Admission) (operandByte (.vcvtdq2pd128 vex2 0 (.mem atRax)) atRax launched 0).toNat =
        .pageFault false false) ∧
    needsAlignment (.vcvtdq2pd128 vex2 0 (.mem atRax)) = false :=
  ⟨⟨⟨(⟨rfl, rfl, rfl, .inl rfl, rfl⟩ : LegacyReady _ true), fun _ => rfl⟩, by decide +kernel, by decide +kernel⟩,
    ⟨⟨(⟨rfl, rfl, rfl, .inl rfl, rfl⟩ : LegacyReady _ true), fun _ => rfl⟩, ⟨by decide +kernel, by decide +kernel⟩,
      by decide +kernel, by decide +kernel⟩,
    ⟨⟨(⟨rfl, rfl, rfl, .inl rfl, rfl⟩ : VexReady _), fun _ => rfl⟩, ⟨by decide +kernel, by decide +kernel⟩,
      by decide +kernel⟩, rfl⟩

/-- Alignment checking on, RAX = `a`. -/
def checking (a : Word) : State :=
  { pointing a with cpl := 3, cr0 := 0x60040030#32, eflags := 0x00040002#32 }

theorem test_witness_AlignmentCheckFiresOnlyWhereItMay :
    ((checking 1).am = true ∧ (checking 1).ac = true ∧ (checking 1).cpl = 3) ∧
    (Admitted (.cvtdq2pd plain 0 (.mem atRax)) (checking 7) ∧ InSegment (.cvtdq2pd plain 0 (.mem atRax)) atRax (checking 7) ∧
      (∀ k, k < loadBytes (.cvtdq2pd plain 0 (.mem atRax)) → Admission.answer (checking 7).loadMap
        (operandByte (.cvtdq2pd plain 0 (.mem atRax)) atRax (checking 7) k).toNat = .granted) ∧
      needsAlignment (.cvtdq2pd plain 0 (.mem atRax)) = false ∧ loadBytes (.cvtdq2pd plain 0 (.mem atRax)) = 8 ∧
      (operandAddress (.cvtdq2pd plain 0 (.mem atRax)) atRax (checking 7)).toNat % 8 ≠ 0) ∧
    (Admitted (.vcvtdq2pd256 vex2 0 (.mem atRax)) (checking 8) ∧
      InSegment (.vcvtdq2pd256 vex2 0 (.mem atRax)) atRax (checking 8) ∧
      (∀ k, k < loadBytes (.vcvtdq2pd256 vex2 0 (.mem atRax)) → Admission.answer (checking 8).loadMap
        (operandByte (.vcvtdq2pd256 vex2 0 (.mem atRax)) atRax (checking 8) k).toNat = .granted) ∧
      needsAlignment (.vcvtdq2pd256 vex2 0 (.mem atRax)) = false ∧ loadBytes (.vcvtdq2pd256 vex2 0 (.mem atRax)) = 16 ∧
      (operandAddress (.vcvtdq2pd256 vex2 0 (.mem atRax)) atRax (checking 8)).toNat % 16 ≠ 0) ∧
    (operandAddress (.cvtdq2pd plain 0 (.mem atRax)) atRax (checking 8)).toNat % 8 = 0 ∧ launched.ac = false :=
  ⟨by decide, ⟨⟨(⟨rfl, rfl, rfl, .inl rfl, rfl⟩ : LegacyReady _ true), fun _ => rfl⟩, ⟨by decide +kernel, by decide +kernel⟩,
      by decide +kernel, rfl, rfl, by decide +kernel⟩,
    ⟨⟨(⟨rfl, rfl, rfl, .inl rfl, rfl⟩ : VexReady _), fun _ => rfl⟩, ⟨by decide +kernel, by decide +kernel⟩,
      by decide +kernel, rfl, rfl, by decide +kernel⟩, by decide +kernel, rfl⟩

theorem test_fault_alignment_check :
    faultOf (exec (.cvtdq2pd plain 0 (.mem atRax)) (checking 7)) = some .alignmentCheck := by decide +kernel

theorem test_witness_FaultsChangeNothingElse :
    (launched.atFault (.pageFault 5#32 0x1000#64)).cr2 = 0x1000#64 ∧ Fault.invalidOpcode ≠ .simdFloatingPoint ∧
    Fault.invalidOpcode ≠ .invalidOpcodeSimd ∧ ∀ code a, Fault.alignmentCheck ≠ .pageFault code a :=
  ⟨rfl, by decide, by decide, by intro _ _ h; cases h⟩

theorem test_witness_OtherModesAreRefused :
    ∀ m ∈ [Mode.realAddress, .virtual8086, .code16, .systemManagement], ({ launched with mode := m } : State).mode.modelled = false := by
  decide

/-- The bytes of the text, then `ans`: an instruction cut short after `k` bytes. -/
def cutShort (k : Nat) (ans : Answer) : State :=
  { placeText launched (List.replicate k 0xF0#8) with fetchMap := [⟨0xFFF0, k, .granted⟩, ⟨0xFFF0 + k, 1, ans⟩] }

/-- No byte, 14 bytes and all 15 bytes of a window fetched without an end of the instruction. -/
theorem test_witness_FetchStopsTheStep :
    (∀ k ∈ [0, 14, 15], ∀ ans ∈ [Answer.pageFault false false, .segmentFault],
      (cutShort k ans).mode.modelled = true ∧ (cutShort k ans).pc.toNat + k < (cutShort k ans).addressLimit ∧
      (∀ j, j < k → Admission.answer (cutShort k ans).fetchMap ((cutShort k ans).pc.toNat + j) = .granted) ∧
      decode (cutShort k ans).mode64 ((List.range k).map fun j => (cutShort k ans).mem.read ((cutShort k ans).pc.toNat + j)) =
        .short ∧
      Admission.answer (cutShort k ans).fetchMap ((cutShort k ans).pc.toNat + k) = ans) := by
  decide +kernel

/-- An instruction with nothing added, with a LOCK byte among and after its prefixes, and with `66` or REX before its VEX
prefix. -/
theorem test_witness_FetchStopsTheStep_prefixes :
    ((Instr.cvtdq2pd plain 0 (.reg 1)).wf true = true ∧ (Instr.cvtdq2pd plain 0 (.reg 1)).wf false = true ∧
      (Instr.cvtdq2pd plain 0 (.reg 1)).len = 4) ∧
    (encode (.cvtdq2pd ⟨some .fs, true, false⟩ 0 (.mem atRax)) = [0x64#8, 0x67#8] ++ [0xF3#8, 0x0F#8, 0xE6#8, 0x00#8] ∧
      (∀ b ∈ [0x64#8, 0x67#8], isPrefixByte b = true) ∧
      (Instr.cvtdq2pd ⟨some .fs, true, false⟩ 0 (.mem atRax)).wf true = true) ∧
    (vexShape (.vcvtdq2pd128 ⟨some .gs, false, false⟩ 0 (.mem atRax)) = true ∧
      encode (.vcvtdq2pd128 ⟨some .gs, false, false⟩ 0 (.mem atRax)) = [0x65#8] ++ [0xC5#8, 0xFA#8, 0xE6#8, 0x00#8] ∧
      isMandatoryByte 0x66#8 = true ∧ isRexByte 0x48#8 = true ∧
      [0xC5#8, 0xFA#8, 0xE6#8, 0x00#8].head? = some 0xC5#8) := by decide

/-- `bytes` admitted, and a page fault at every other address. -/
def refusedAfter (bytes : List Byte) : State := placeText launched bytes

/-- A refused opcode byte after `66 C5 FA` is a page fault, and 13 LOCK bytes before `C5 FA E6 C1` are a length fault: a
fetch fault comes before the `#UD` of R101 (R263). -/
theorem test_fault_fetch_before_encoding :
    (match faultOf (step (refusedAfter [0x66#8, 0xC5#8, 0xFA#8])) with
      | some (.pageFault _ a) => decide (a = 0xFFF3#64)
      | _ => false) = true ∧
    faultOf (step (refusedAfter (List.replicate 13 0xF0#8 ++ [0xC5#8, 0xFA#8, 0xE6#8, 0xC1#8]))) =
      some .generalProtection ∧
    faultOf (step (refusedAfter (List.replicate 11 0xF0#8 ++ [0xC5#8, 0xFA#8, 0xE6#8, 0xC1#8]))) = some .invalidOpcode := by
  decide +kernel

/-! Runs (R304) and INIT (R305) -/

/-- CVTDQ2PD xmm0, xmm1; then CVTPS2PI mm0, xmm1. -/
def twoForms : List Instr := [.cvtdq2pd plain 0 (.reg 1), .cvtps2pi plain 0 (.reg 1)]
def twoBytes : List Byte := [0xF3#8, 0x0F#8, 0xE6#8, 0xC1#8, 0x0F#8, 0x2D#8, 0xC1#8]
/-- With an x87 exception pending, which only the second of the two forms minds. -/
def pendingState (s : State) : State := { s with x87Pending := true }
/-- The same with `CR0.NE = 0`. -/
def externalState (s : State) : State := { s with x87Pending := true, cr0 := 0x60000010#32 }

theorem test_witness_RunOfATextExecutesItsInstructionsInOrder :
    (twoForms.flatMap encode = twoBytes ∧ (∀ i ∈ twoForms, i.wf true = true) ∧ (loaded twoBytes).mode.modelled = true ∧
      (loaded twoBytes).pc.toNat < (loaded twoBytes).addressLimit ∧
      (twoForms.flatMap encode).length < (loaded twoBytes).addressLimit ∧
      TextAt (loaded twoBytes) (twoForms.flatMap encode)) ∧
    isNext (execAll twoForms (loaded twoBytes)) = true ∧ isNext (execAll [] (loaded [])) = true ∧
    (isNext (execAll [.cvtdq2pd plain 0 (.reg 1)] (pendingState (loaded twoBytes))) = true ∧
      faultOf (exec (.cvtps2pi plain 0 (.reg 1)) (after (execAll [.cvtdq2pd plain 0 (.reg 1)] (pendingState (loaded twoBytes))))) =
        some .x87FloatingPoint) ∧
    (isNext (execAll [.cvtdq2pd plain 0 (.reg 1)] (externalState (loaded twoBytes))) = true ∧
      refusalOf (exec (.cvtps2pi plain 0 (.reg 1)) (after (execAll [.cvtdq2pd plain 0 (.reg 1)] (externalState (loaded twoBytes))))) =
        some .x87ReportedExternally) :=
  ⟨⟨by decide, by decide, by decide, by decide +kernel, by decide +kernel, textAt_of (by decide +kernel)⟩,
    by decide +kernel, by decide +kernel, by decide +kernel, by decide +kernel⟩

/-- The end of the text ends the run, though a step there would be a page fault. -/
theorem test_run_ends_past_the_text :
    (match runText [0xF3#8, 0x0F#8, 0xE6#8, 0xC1#8] 1 launched with
      | .finished t => decide (t.pc = 0xFFF4#64) && (faultOf (step t)).isSome
      | _ => false) = true := by decide +kernel

/-- The launched machine with `pc` four bytes below the top of its address space. -/
def belowTop (s : State) : State := { s with pc := BitVec.ofNat 64 (s.addressLimit - 4) }

/-- A text that ends at the top fits, one byte more wraps, in both modes. -/
theorem test_witness_RunOfATextExecutesItsInstructionsInOrder_wrap :
    ((belowTop launched).pc.toNat + 4 = (belowTop launched).addressLimit ∧
      (belowTop launched32).pc.toNat + 4 = (belowTop launched32).addressLimit ∧
      (belowTop launched).addressLimit < (belowTop launched).pc.toNat + 5) ∧
    launched.mem.wf = true := by decide +kernel

/-- CVTDQ2PD at the last four addresses finishes at pc 0; the two forms together wrap and are refused (R302, D21). -/
theorem test_run_of_wrapping_text :
    (match runText [0xF3#8, 0x0F#8, 0xE6#8, 0xC1#8] 1 (belowTop launched) with
      | .finished t => decide (t.pc = 0)
      | _ => false) = true ∧
    (match runText twoBytes 2 (belowTop launched) with
      | .refused r t => decide (r = .wrapsAddressSpace) && decide (t.pc = 0xFFFFFFFFFFFFFFFC#64)
      | _ => false) = true ∧
    (match runText twoBytes 2 (belowTop launched32) with
      | .refused r _ => decide (r = .wrapsAddressSpace)
      | _ => false) = true := by decide +kernel

/-- INIT keeps MXCSR and a vector register, and leaves real-address mode at FFF0H. -/
theorem test_init_keeps_mxcsr_and_vectors :
    (initReset { launched.writeYmm 3 7#256 with mxcsr := 0x9FC0#32 }).mxcsr = 0x9FC0#32 ∧
    (initReset { launched.writeYmm 3 7#256 with mxcsr := 0x9FC0#32 }).ymm[(3 : Fin 16)] = 7#256 ∧
    (initReset launched).mode = .realAddress ∧ (initReset launched).pc = 0xFFF0#64 := by decide +kernel

theorem test_witness_ResetMeetsTheInvariant : launched.Inv ∧ State.Inv { launched with mxcsr := 0xFFFF#32 } :=
  ⟨⟨by decide, by decide, by decide⟩, by decide, by decide, by decide⟩

/-! Memory -/

/-- Two memories that agree on the eight operand bytes and differ above them. -/
theorem test_witness_LoadReadsExactlyTheOperandBytes :
    (∀ k, k < 8 → Memory.read [(8, 1#8)] (operandByte (.cvtdq2pd plain 0 (.mem atRax)) atRax launched k).toNat =
      launched.mem.read (operandByte (.cvtdq2pd plain 0 (.mem atRax)) atRax launched k).toNat) ∧
    loadBytes (.cvtdq2pd plain 0 (.mem atRax)) = 8 ∧ isNext (exec (.cvtdq2pd plain 0 (.mem atRax)) launched) = true ∧
    (faultOf (exec (.cvtdq2pd plain 0 (.mem atRax)) { launched with loadMap := [] })).isSome = true ∧
    (refusalOf (exec (.cvtpi2ps plain 0 (.mem atRax)) { launched with x87Pending := true, cr0 := 0x60000010#32 })).isSome =
      true := by decide +kernel

/-- A read, and one whose bytes wrap from the top of the address space to address 0. -/
theorem test_witness_MemReadIsLittleEndian :
    memRead 64 { launched with mem := [(0, 0xEF#8), (7, 0x01#8)] } .ds 0 false = .ok 0x01000000000000EF#64 ∧
    memRead 32 { launched with mem := [(0, 0xEF#8), (7, 0x01#8)] } .ds 0 false = .ok 0x000000EF#32 ∧
    memRead 64 { launched with mem := [(0, 0xEF#8)] } .ds 0xFFFFFFFFFFFFFFFF#64 false = .ok 0xEF00#64 :=
  ⟨eq_ok_of (by decide +kernel), eq_ok_of (by decide +kernel), eq_ok_of (by decide +kernel)⟩

theorem test_witness_MemReadAfterMemWriteGivesTheValue :
    ((memWrite launched .ds 0xFFFFFFFFFFFFFFFC#64 false 0x0807060504030201#64).toOption).isSome = true ∧
    ((memWrite launched .ds 0x10#64 true 0x0807060504030201#128).toOption).isSome = true ∧
    ((memWrite launched .ss 0x11#64 false 1#256).toOption).isSome = true ∧ launched.mem.wf = true := by decide +kernel

/-! Conversions -/

theorem test_witness_f64_classes :
    (f64.classify (unpack64 0x7FF0000000000000) = .infinity ∧ f64.classify (unpack64 0xFFF0000000000000) = .infinity) ∧
    (f64.classify (unpack64 0x7FF8000000000000) = .quiet ∧ f64.classify (unpack64 0xFFFFFFFFFFFFFFFF) = .quiet) ∧
    (f64.classify (unpack64 0x7FF0000000000001) = .signalling ∧ f64.classify (unpack64 0xFFF7FFFFFFFFFFFF) = .signalling) ∧
    (f64.classify (unpack64 0) = .zero ∧ f64.classify (unpack64 0x8000000000000000) = .zero) ∧
    (f64.classify (unpack64 1) = .denormal ∧ f64.classify (unpack64 0x800FFFFFFFFFFFFF) = .denormal) ∧
    (f64.classify (unpack64 0x0010000000000000) = .normal ∧ f64.classify (unpack64 0xFFEFFFFFFFFFFFFF) = .normal) := by
  decide +kernel

theorem test_witness_f32_classes :
    (f32.classify (unpack32 0x7F800000) = .infinity ∧ f32.classify (unpack32 0xFF800000) = .infinity) ∧
    (f32.classify (unpack32 0x7FC00000) = .quiet ∧ f32.classify (unpack32 0xFFFFFFFF) = .quiet) ∧
    (f32.classify (unpack32 0x7F800001) = .signalling ∧ f32.classify (unpack32 0xFFBFFFFF) = .signalling) ∧
    (f32.classify (unpack32 0) = .zero ∧ f32.classify (unpack32 0x80000000) = .zero) ∧
    (f32.classify (unpack32 1) = .denormal ∧ f32.classify (unpack32 0x807FFFFF) = .denormal) ∧
    (f32.classify (unpack32 0x00800000) = .normal ∧ f32.classify (unpack32 0xFF7FFFFF) = .normal) := by
  decide +kernel

theorem test_witness_IntegerToDoubleIsExact :
    (0#32).toInt = 0 ∧ (0x80000000#32).toInt ≠ 0 ∧ (0x80000000#32).toInt.natAbs.log2 = 31 ∧ (1#32).toInt.natAbs.log2 = 0 := by
  decide +kernel

/-- The largest magnitude that is always exact, the first inexact one, and both zeros of the flags. -/
theorem test_witness_IntegerToSingleIsCorrectlyRounded :
    (0x01000000#32).toInt.natAbs ≤ 2 ^ 24 ∧ ¬ (0x01000001#32).toInt.natAbs ≤ 2 ^ 24 ∧ (0#32).toInt = 0 ∧
    i32ToF32 .up 0x01000001 = { value := 0x4B800001, flags := .inexact true } ∧
    i32ToF32 .down 0xFEFFFFFF = { value := 0xCB800001, flags := .inexact true } := by decide +kernel

/-- The ends of the range of a doubleword: `2^31 - 1` and `-2^31` are converted, `2^31` and `-2^31 - 1` are not. -/
theorem test_witness_FloatToIntegerMatchesTheReference :
    f64ToI32 .nearest false 0x41DFFFFFFFC00000 = { value := 0x7FFFFFFF, flags := .none } ∧
    f64ToI32 .nearest false 0x41E0000000000000 = { value := 0x80000000, flags := .onlyInvalid } ∧
    f64ToI32 .nearest false 0xC1E0000000000000 = { value := 0x80000000, flags := .none } ∧
    f64ToI32 .nearest false 0xC1E0000000200000 = { value := 0x80000000, flags := .onlyInvalid } ∧
    f64ToI64 .nearest false 0x43E0000000000000 = { value := 0x8000000000000000, flags := .onlyInvalid } ∧
    f64ToI64 .nearest false 0xC3E0000000000000 = { value := 0x8000000000000000, flags := .none } ∧
    f32ToI32 .nearest false 0x4F000000 = { value := 0x80000000, flags := .onlyInvalid } ∧
    f32ToI32 .up true 1 = { value := 0, flags := .none } ∧ f32ToI32 .up false 1 = { value := 1, flags := .inexact true } := by
  decide +kernel

/-- The step-6 boundaries of R155: the first overflow, the smallest normal result, a tiny inexact and a tiny exact one. -/
theorem test_witness_DoubleToSingleMatchesTheReference :
    f64ToF32 .nearest false false true 0x47EFFFFFF0000000 =
      { value := 0x7F800000, flags := { FpFlags.none with overflow := true, precision := true } } ∧
    f64ToF32 .nearest false false true 0x47EFFFFFEFFFFFFF = { value := 0x7F7FFFFF, flags := .inexact true } ∧
    f64ToF32 .nearest false false true 0x3810000000000000 = { value := 0x00800000, flags := .none } ∧
    f64ToF32 .nearest false false true 0x380FFFFFFFFFFFFF = { value := 0x00800000, flags := .inexact true } ∧
    f64ToF32 .zero false true true 0xB80FFFFFC0000000 =
      { value := 0x80000000, flags := { FpFlags.none with underflow := true, precision := true } } ∧
    f64ToF32 .nearest false false true 0x37F0000000000000 = { value := 0x00200000, flags := .none } ∧
    (f64ToF32 .nearest false false false 0x37F0000000000000).flags = { FpFlags.none with underflow := true } := by
  decide +kernel

/-- One bit string of each class of R156, the denormal with DAZ = 1 and with DAZ = 0. -/
theorem test_witness_SingleToDoubleIsExact :
    f32ToF64 false 0xFF800000 = { value := 0xFFF0000000000000, flags := .none } ∧
    f32ToF64 false 0xFFC00001 = { value := 0xFFF8000020000000, flags := .none } ∧
    f32ToF64 false 0x7F800001 = { value := 0x7FF8000020000000, flags := .onlyInvalid } ∧
    f32ToF64 false 0x80000000 = { value := 0x8000000000000000, flags := .none } ∧
    f32ToF64 true 0x80000001 = { value := 0x8000000000000000, flags := .none } ∧
    f32ToF64 false 1 = { value := 0x36A0000000000000, flags := { FpFlags.none with denormal := true } } ∧
    f32ToF64 false 0x3F800000 = { value := 0x3FF0000000000000, flags := .none } := by decide +kernel

/-- R70 and R71 on numbers: base, scaled index and displacement; a 32-bit sum that wraps; the next pc plus disp32. -/
theorem test_addresses :
    Mem.linear (.sib 2 (some (2, .x8)) (.disp8 0xFF)) none false 5 launched = 0x123BDE#64 ∧
    Mem.linear (.based 0 (.disp32 0xFFFFFFFF)) none true 5 launched = 0xFFFFFFFF#64 ∧
    Mem.linear (.based 0 (.disp32 0xFFFFFFFF)) none false 5 launched = 0xFFFFFFFFFFFFFFFF#64 ∧
    Mem.linear (.ripRel 0x100) none false 8 launched = 0x100F8#64 ∧
    Mem.linear (.based 0 .none) (some .fs) false 5 { launched with fsBase := 0x1000#64 } = 0x1000#64 ∧
    Mem.linear (.based 0 .none) (some .fs) false 5 { launched32 with fsBase := 0x1000#64 } = 0#64 := by decide +kernel

theorem test_witness_PossibleFlagsOfEachPrimitive :
    (f64ToF32 .nearest false false true 0x7FF0000000000001).flags.invalid = true ∧
    (f64ToF32 .nearest false false true 0x47F0000000000000).flags.overflow = true ∧
    (f64ToF32 .nearest false false true 1).flags.underflow = true ∧
    (f64ToF32 .nearest false false true 1).flags.denormal = true ∧
    (f64ToF32 .zero false true false 1).flags.denormal = true := by decide +kernel

theorem test_witness_SingleRoundTripThroughDouble :
    (f32.classify (unpack32 0x7FC00000) ≠ .denormal ∧ f32.classify (unpack32 0x7FC00000) ≠ .signalling) ∧
    f32.classify (unpack32 0x007FFFFF) = .denormal ∧ f32.classify (unpack32 0x7FBFFFFF) = .signalling := by
  decide +kernel

/-! Results: each form of each page with its register source readable, once with every flag masked and once with a flag
that is not; its memory source is in `test_witness_memory_sources`. -/

/-- `YMM[1] = v`. -/
def holding (v : BitVec 256) : State := launched.writeYmm 1 v
/-- `YMM[1] = v` and every SIMD exception unmasked. -/
def holdingUnmasked (v : BitVec 256) : State := unmaskedState.writeYmm 1 v

theorem holding_ready (v : BitVec 256) : LegacyReady (holding v) true :=
  ⟨launched_ready.em, launched_ready.osfxsr, rfl, launched_ready.mode, launched_ready.ts⟩
theorem holding_vexReady (v : BitVec 256) : VexReady (holding v) :=
  ⟨launched_vexReady.osxsave, launched_vexReady.xcr0, rfl, launched_vexReady.mode, launched_vexReady.ts⟩
theorem holdingUnmasked_ready (v : BitVec 256) : LegacyReady (holdingUnmasked v) true :=
  ⟨launched_ready.em, launched_ready.osfxsr, rfl, launched_ready.mode, launched_ready.ts⟩
theorem holdingUnmasked_vexReady (v : BitVec 256) : VexReady (holdingUnmasked v) :=
  ⟨launched_vexReady.osxsave, launched_vexReady.xcr0, rfl, launched_vexReady.mode, launched_vexReady.ts⟩

theorem test_witness_memory_sources :
    legacySource 64 false plain 4 (.mem atRax) launched = .ok 0#64 ∧
    legacySource 128 true plain 4 (.mem atRax) launched = .ok 0#128 ∧ vexSource 64 vex2 4 (.mem atRax) launched = .ok 0#64 ∧
    vexSource 128 vex2 4 (.mem atRax) launched = .ok 0#128 ∧ vexSource 256 vex2 4 (.mem atRax) launched = .ok 0#256 ∧
    mmxSource plain 4 (.mem atRax) launched = .ok 0#64 :=
  ⟨eq_ok_of (by decide +kernel), eq_ok_of (by decide +kernel), eq_ok_of (by decide +kernel), eq_ok_of (by decide +kernel),
    eq_ok_of (by decide +kernel), eq_ok_of (by decide +kernel)⟩

theorem test_witness_Cvtdq2pdConvertsToDouble :
    LegacyReady launched launched.params.sse2 ∧ legacySource 64 false plain 4 (.reg 1) launched = .ok (launched.vec 64 1) ∧
    VexReady launched ∧ vexSource 64 vex2 4 (.reg 1) launched = .ok (launched.vec 64 1) ∧
    vexSource 128 vex2 4 (.reg 1) launched = .ok (launched.vec 128 1) :=
  ⟨launched_ready, rfl, launched_vexReady, rfl, rfl⟩

theorem test_witness_Cvtdq2psConvertsToSingle :
    (LegacyReady (holding 0x100000100000000) (holding 0x100000100000000).params.sse2 ∧
      legacySource 128 true plain 4 (.reg 1) (holding 0x100000100000000) = .ok ((holding 0x100000100000000).vec 128 1) ∧
      Masked (holding 0x100000100000000) (flags4 (i32ToF32 (holding 0x100000100000000).rc) ((holding 0x100000100000000).vec 128 1))) ∧
    (LegacyReady (holdingUnmasked 0x100000100000000) (holdingUnmasked 0x100000100000000).params.sse2 ∧
      legacySource 128 true plain 4 (.reg 1) (holdingUnmasked 0x100000100000000) = .ok ((holdingUnmasked 0x100000100000000).vec 128 1) ∧
      ¬ Masked (holdingUnmasked 0x100000100000000) (flags4 (i32ToF32 (holdingUnmasked 0x100000100000000).rc) ((holdingUnmasked 0x100000100000000).vec 128 1))) ∧
    (VexReady (holding 0x100000100000000) ∧
      vexSource 128 vex2 4 (.reg 1) (holding 0x100000100000000) = .ok ((holding 0x100000100000000).vec 128 1) ∧
      Masked (holding 0x100000100000000) (flags4 (i32ToF32 (holding 0x100000100000000).rc) ((holding 0x100000100000000).vec 128 1))) ∧
    (VexReady (holdingUnmasked 0x100000100000000) ∧
      vexSource 128 vex2 4 (.reg 1) (holdingUnmasked 0x100000100000000) = .ok ((holdingUnmasked 0x100000100000000).vec 128 1) ∧
      ¬ Masked (holdingUnmasked 0x100000100000000) (flags4 (i32ToF32 (holdingUnmasked 0x100000100000000).rc) ((holdingUnmasked 0x100000100000000).vec 128 1))) ∧
    (VexReady (holding 0x100000100000000) ∧
      vexSource 256 vex2 4 (.reg 1) (holding 0x100000100000000) = .ok ((holding 0x100000100000000).vec 256 1) ∧
      Masked (holding 0x100000100000000) (flags8 (i32ToF32 (holding 0x100000100000000).rc) ((holding 0x100000100000000).vec 256 1))) ∧
    (VexReady (holdingUnmasked 0x100000100000000) ∧
      vexSource 256 vex2 4 (.reg 1) (holdingUnmasked 0x100000100000000) = .ok ((holdingUnmasked 0x100000100000000).vec 256 1) ∧
      ¬ Masked (holdingUnmasked 0x100000100000000) (flags8 (i32ToF32 (holdingUnmasked 0x100000100000000).rc) ((holdingUnmasked 0x100000100000000).vec 256 1))) :=
  ⟨⟨holding_ready _, rfl, masked_of_1f80 rfl _⟩,
    ⟨holdingUnmasked_ready _, rfl, not_masked_of_precision rfl (by decide +kernel)⟩,
    ⟨holding_vexReady _, rfl, masked_of_1f80 rfl _⟩,
    ⟨holdingUnmasked_vexReady _, rfl, not_masked_of_precision rfl (by decide +kernel)⟩,
    ⟨holding_vexReady _, rfl, masked_of_1f80 rfl _⟩,
    ⟨holdingUnmasked_vexReady _, rfl, not_masked_of_precision rfl (by decide +kernel)⟩⟩

theorem test_witness_Cvtpd2dqConvertsToInteger :
    (LegacyReady (holding 0x3FF80000000000000000000000000000) (holding 0x3FF80000000000000000000000000000).params.sse2 ∧
      legacySource 128 true plain 4 (.reg 1) (holding 0x3FF80000000000000000000000000000) = .ok ((holding 0x3FF80000000000000000000000000000).vec 128 1) ∧
      Masked (holding 0x3FF80000000000000000000000000000) (flags2 (f64ToI32 (holding 0x3FF80000000000000000000000000000).rc (holding 0x3FF80000000000000000000000000000).daz) ((holding 0x3FF80000000000000000000000000000).vec 128 1))) ∧
    (LegacyReady (holdingUnmasked 0x3FF80000000000000000000000000000) (holdingUnmasked 0x3FF80000000000000000000000000000).params.sse2 ∧
      legacySource 128 true plain 4 (.reg 1) (holdingUnmasked 0x3FF80000000000000000000000000000) = .ok ((holdingUnmasked 0x3FF80000000000000000000000000000).vec 128 1) ∧
      ¬ Masked (holdingUnmasked 0x3FF80000000000000000000000000000) (flags2 (f64ToI32 (holdingUnmasked 0x3FF80000000000000000000000000000).rc (holdingUnmasked 0x3FF80000000000000000000000000000).daz) ((holdingUnmasked 0x3FF80000000000000000000000000000).vec 128 1))) ∧
    (VexReady (holding 0x3FF80000000000000000000000000000) ∧
      vexSource 128 vex2 4 (.reg 1) (holding 0x3FF80000000000000000000000000000) = .ok ((holding 0x3FF80000000000000000000000000000).vec 128 1) ∧
      Masked (holding 0x3FF80000000000000000000000000000) (flags2 (f64ToI32 (holding 0x3FF80000000000000000000000000000).rc (holding 0x3FF80000000000000000000000000000).daz) ((holding 0x3FF80000000000000000000000000000).vec 128 1))) ∧
    (VexReady (holdingUnmasked 0x3FF80000000000000000000000000000) ∧
      vexSource 128 vex2 4 (.reg 1) (holdingUnmasked 0x3FF80000000000000000000000000000) = .ok ((holdingUnmasked 0x3FF80000000000000000000000000000).vec 128 1) ∧
      ¬ Masked (holdingUnmasked 0x3FF80000000000000000000000000000) (flags2 (f64ToI32 (holdingUnmasked 0x3FF80000000000000000000000000000).rc (holdingUnmasked 0x3FF80000000000000000000000000000).daz) ((holdingUnmasked 0x3FF80000000000000000000000000000).vec 128 1))) ∧
    (VexReady (holding 0x3FF80000000000000000000000000000) ∧
      vexSource 256 vex2 4 (.reg 1) (holding 0x3FF80000000000000000000000000000) = .ok ((holding 0x3FF80000000000000000000000000000).vec 256 1) ∧
      Masked (holding 0x3FF80000000000000000000000000000) (flags4 (f64ToI32 (holding 0x3FF80000000000000000000000000000).rc (holding 0x3FF80000000000000000000000000000).daz) ((holding 0x3FF80000000000000000000000000000).vec 256 1))) ∧
    (VexReady (holdingUnmasked 0x3FF80000000000000000000000000000) ∧
      vexSource 256 vex2 4 (.reg 1) (holdingUnmasked 0x3FF80000000000000000000000000000) = .ok ((holdingUnmasked 0x3FF80000000000000000000000000000).vec 256 1) ∧
      ¬ Masked (holdingUnmasked 0x3FF80000000000000000000000000000) (flags4 (f64ToI32 (holdingUnmasked 0x3FF80000000000000000000000000000).rc (holdingUnmasked 0x3FF80000000000000000000000000000).daz) ((holdingUnmasked 0x3FF80000000000000000000000000000).vec 256 1))) :=
  ⟨⟨holding_ready _, rfl, masked_of_1f80 rfl _⟩,
    ⟨holdingUnmasked_ready _, rfl, not_masked_of_precision rfl (by decide +kernel)⟩,
    ⟨holding_vexReady _, rfl, masked_of_1f80 rfl _⟩,
    ⟨holdingUnmasked_vexReady _, rfl, not_masked_of_precision rfl (by decide +kernel)⟩,
    ⟨holding_vexReady _, rfl, masked_of_1f80 rfl _⟩,
    ⟨holdingUnmasked_vexReady _, rfl, not_masked_of_precision rfl (by decide +kernel)⟩⟩

theorem test_witness_Cvtpd2psConvertsToSingle :
    (LegacyReady (holding 0x3FB999999999999A0000000000000000) (holding 0x3FB999999999999A0000000000000000).params.sse2 ∧
      legacySource 128 true plain 4 (.reg 1) (holding 0x3FB999999999999A0000000000000000) = .ok ((holding 0x3FB999999999999A0000000000000000).vec 128 1) ∧
      Masked (holding 0x3FB999999999999A0000000000000000) (flags2 (f64ToF32 (holding 0x3FB999999999999A0000000000000000).rc (holding 0x3FB999999999999A0000000000000000).daz (holding 0x3FB999999999999A0000000000000000).fz (holding 0x3FB999999999999A0000000000000000).um) ((holding 0x3FB999999999999A0000000000000000).vec 128 1))) ∧
    (LegacyReady (holdingUnmasked 0x3FB999999999999A0000000000000000) (holdingUnmasked 0x3FB999999999999A0000000000000000).params.sse2 ∧
      legacySource 128 true plain 4 (.reg 1) (holdingUnmasked 0x3FB999999999999A0000000000000000) = .ok ((holdingUnmasked 0x3FB999999999999A0000000000000000).vec 128 1) ∧
      ¬ Masked (holdingUnmasked 0x3FB999999999999A0000000000000000) (flags2 (f64ToF32 (holdingUnmasked 0x3FB999999999999A0000000000000000).rc (holdingUnmasked 0x3FB999999999999A0000000000000000).daz (holdingUnmasked 0x3FB999999999999A0000000000000000).fz (holdingUnmasked 0x3FB999999999999A0000000000000000).um) ((holdingUnmasked 0x3FB999999999999A0000000000000000).vec 128 1))) ∧
    (VexReady (holding 0x3FB999999999999A0000000000000000) ∧
      vexSource 128 vex2 4 (.reg 1) (holding 0x3FB999999999999A0000000000000000) = .ok ((holding 0x3FB999999999999A0000000000000000).vec 128 1) ∧
      Masked (holding 0x3FB999999999999A0000000000000000) (flags2 (f64ToF32 (holding 0x3FB999999999999A0000000000000000).rc (holding 0x3FB999999999999A0000000000000000).daz (holding 0x3FB999999999999A0000000000000000).fz (holding 0x3FB999999999999A0000000000000000).um) ((holding 0x3FB999999999999A0000000000000000).vec 128 1))) ∧
    (VexReady (holdingUnmasked 0x3FB999999999999A0000000000000000) ∧
      vexSource 128 vex2 4 (.reg 1) (holdingUnmasked 0x3FB999999999999A0000000000000000) = .ok ((holdingUnmasked 0x3FB999999999999A0000000000000000).vec 128 1) ∧
      ¬ Masked (holdingUnmasked 0x3FB999999999999A0000000000000000) (flags2 (f64ToF32 (holdingUnmasked 0x3FB999999999999A0000000000000000).rc (holdingUnmasked 0x3FB999999999999A0000000000000000).daz (holdingUnmasked 0x3FB999999999999A0000000000000000).fz (holdingUnmasked 0x3FB999999999999A0000000000000000).um) ((holdingUnmasked 0x3FB999999999999A0000000000000000).vec 128 1))) ∧
    (VexReady (holding 0x3FB999999999999A0000000000000000) ∧
      vexSource 256 vex2 4 (.reg 1) (holding 0x3FB999999999999A0000000000000000) = .ok ((holding 0x3FB999999999999A0000000000000000).vec 256 1) ∧
      Masked (holding 0x3FB999999999999A0000000000000000) (flags4 (f64ToF32 (holding 0x3FB999999999999A0000000000000000).rc (holding 0x3FB999999999999A0000000000000000).daz (holding 0x3FB999999999999A0000000000000000).fz (holding 0x3FB999999999999A0000000000000000).um) ((holding 0x3FB999999999999A0000000000000000).vec 256 1))) ∧
    (VexReady (holdingUnmasked 0x3FB999999999999A0000000000000000) ∧
      vexSource 256 vex2 4 (.reg 1) (holdingUnmasked 0x3FB999999999999A0000000000000000) = .ok ((holdingUnmasked 0x3FB999999999999A0000000000000000).vec 256 1) ∧
      ¬ Masked (holdingUnmasked 0x3FB999999999999A0000000000000000) (flags4 (f64ToF32 (holdingUnmasked 0x3FB999999999999A0000000000000000).rc (holdingUnmasked 0x3FB999999999999A0000000000000000).daz (holdingUnmasked 0x3FB999999999999A0000000000000000).fz (holdingUnmasked 0x3FB999999999999A0000000000000000).um) ((holdingUnmasked 0x3FB999999999999A0000000000000000).vec 256 1))) :=
  ⟨⟨holding_ready _, rfl, masked_of_1f80 rfl _⟩,
    ⟨holdingUnmasked_ready _, rfl, not_masked_of_precision rfl (by decide +kernel)⟩,
    ⟨holding_vexReady _, rfl, masked_of_1f80 rfl _⟩,
    ⟨holdingUnmasked_vexReady _, rfl, not_masked_of_precision rfl (by decide +kernel)⟩,
    ⟨holding_vexReady _, rfl, masked_of_1f80 rfl _⟩,
    ⟨holdingUnmasked_vexReady _, rfl, not_masked_of_precision rfl (by decide +kernel)⟩⟩

theorem test_witness_Cvtps2dqConvertsToInteger :
    (LegacyReady (holding 0x3FC00000000000000000000000000000) (holding 0x3FC00000000000000000000000000000).params.sse2 ∧
      legacySource 128 true plain 4 (.reg 1) (holding 0x3FC00000000000000000000000000000) = .ok ((holding 0x3FC00000000000000000000000000000).vec 128 1) ∧
      Masked (holding 0x3FC00000000000000000000000000000) (flags4 (f32ToI32 (holding 0x3FC00000000000000000000000000000).rc (holding 0x3FC00000000000000000000000000000).daz) ((holding 0x3FC00000000000000000000000000000).vec 128 1))) ∧
    (LegacyReady (holdingUnmasked 0x3FC00000000000000000000000000000) (holdingUnmasked 0x3FC00000000000000000000000000000).params.sse2 ∧
      legacySource 128 true plain 4 (.reg 1) (holdingUnmasked 0x3FC00000000000000000000000000000) = .ok ((holdingUnmasked 0x3FC00000000000000000000000000000).vec 128 1) ∧
      ¬ Masked (holdingUnmasked 0x3FC00000000000000000000000000000) (flags4 (f32ToI32 (holdingUnmasked 0x3FC00000000000000000000000000000).rc (holdingUnmasked 0x3FC00000000000000000000000000000).daz) ((holdingUnmasked 0x3FC00000000000000000000000000000).vec 128 1))) ∧
    (VexReady (holding 0x3FC00000000000000000000000000000) ∧
      vexSource 128 vex2 4 (.reg 1) (holding 0x3FC00000000000000000000000000000) = .ok ((holding 0x3FC00000000000000000000000000000).vec 128 1) ∧
      Masked (holding 0x3FC00000000000000000000000000000) (flags4 (f32ToI32 (holding 0x3FC00000000000000000000000000000).rc (holding 0x3FC00000000000000000000000000000).daz) ((holding 0x3FC00000000000000000000000000000).vec 128 1))) ∧
    (VexReady (holdingUnmasked 0x3FC00000000000000000000000000000) ∧
      vexSource 128 vex2 4 (.reg 1) (holdingUnmasked 0x3FC00000000000000000000000000000) = .ok ((holdingUnmasked 0x3FC00000000000000000000000000000).vec 128 1) ∧
      ¬ Masked (holdingUnmasked 0x3FC00000000000000000000000000000) (flags4 (f32ToI32 (holdingUnmasked 0x3FC00000000000000000000000000000).rc (holdingUnmasked 0x3FC00000000000000000000000000000).daz) ((holdingUnmasked 0x3FC00000000000000000000000000000).vec 128 1))) ∧
    (VexReady (holding 0x3FC00000000000000000000000000000) ∧
      vexSource 256 vex2 4 (.reg 1) (holding 0x3FC00000000000000000000000000000) = .ok ((holding 0x3FC00000000000000000000000000000).vec 256 1) ∧
      Masked (holding 0x3FC00000000000000000000000000000) (flags8 (f32ToI32 (holding 0x3FC00000000000000000000000000000).rc (holding 0x3FC00000000000000000000000000000).daz) ((holding 0x3FC00000000000000000000000000000).vec 256 1))) ∧
    (VexReady (holdingUnmasked 0x3FC00000000000000000000000000000) ∧
      vexSource 256 vex2 4 (.reg 1) (holdingUnmasked 0x3FC00000000000000000000000000000) = .ok ((holdingUnmasked 0x3FC00000000000000000000000000000).vec 256 1) ∧
      ¬ Masked (holdingUnmasked 0x3FC00000000000000000000000000000) (flags8 (f32ToI32 (holdingUnmasked 0x3FC00000000000000000000000000000).rc (holdingUnmasked 0x3FC00000000000000000000000000000).daz) ((holdingUnmasked 0x3FC00000000000000000000000000000).vec 256 1))) :=
  ⟨⟨holding_ready _, rfl, masked_of_1f80 rfl _⟩,
    ⟨holdingUnmasked_ready _, rfl, not_masked_of_precision rfl (by decide +kernel)⟩,
    ⟨holding_vexReady _, rfl, masked_of_1f80 rfl _⟩,
    ⟨holdingUnmasked_vexReady _, rfl, not_masked_of_precision rfl (by decide +kernel)⟩,
    ⟨holding_vexReady _, rfl, masked_of_1f80 rfl _⟩,
    ⟨holdingUnmasked_vexReady _, rfl, not_masked_of_precision rfl (by decide +kernel)⟩⟩

theorem test_witness_Cvtps2pdConvertsToDouble :
    (LegacyReady (holding 0x7F80000100000000) (holding 0x7F80000100000000).params.sse2 ∧
      legacySource 64 false plain 4 (.reg 1) (holding 0x7F80000100000000) = .ok ((holding 0x7F80000100000000).vec 64 1) ∧
      Masked (holding 0x7F80000100000000) (flags2 (f32ToF64 (holding 0x7F80000100000000).daz) ((holding 0x7F80000100000000).vec 64 1))) ∧
    (LegacyReady (holdingUnmasked 0x7F80000100000000) (holdingUnmasked 0x7F80000100000000).params.sse2 ∧
      legacySource 64 false plain 4 (.reg 1) (holdingUnmasked 0x7F80000100000000) = .ok ((holdingUnmasked 0x7F80000100000000).vec 64 1) ∧
      ¬ Masked (holdingUnmasked 0x7F80000100000000) (flags2 (f32ToF64 (holdingUnmasked 0x7F80000100000000).daz) ((holdingUnmasked 0x7F80000100000000).vec 64 1))) ∧
    (VexReady (holding 0x7F80000100000000) ∧
      vexSource 64 vex2 4 (.reg 1) (holding 0x7F80000100000000) = .ok ((holding 0x7F80000100000000).vec 64 1) ∧
      Masked (holding 0x7F80000100000000) (flags2 (f32ToF64 (holding 0x7F80000100000000).daz) ((holding 0x7F80000100000000).vec 64 1))) ∧
    (VexReady (holdingUnmasked 0x7F80000100000000) ∧
      vexSource 64 vex2 4 (.reg 1) (holdingUnmasked 0x7F80000100000000) = .ok ((holdingUnmasked 0x7F80000100000000).vec 64 1) ∧
      ¬ Masked (holdingUnmasked 0x7F80000100000000) (flags2 (f32ToF64 (holdingUnmasked 0x7F80000100000000).daz) ((holdingUnmasked 0x7F80000100000000).vec 64 1))) ∧
    (VexReady (holding 0x7F80000100000000) ∧
      vexSource 128 vex2 4 (.reg 1) (holding 0x7F80000100000000) = .ok ((holding 0x7F80000100000000).vec 128 1) ∧
      Masked (holding 0x7F80000100000000) (flags4 (f32ToF64 (holding 0x7F80000100000000).daz) ((holding 0x7F80000100000000).vec 128 1))) ∧
    (VexReady (holdingUnmasked 0x7F80000100000000) ∧
      vexSource 128 vex2 4 (.reg 1) (holdingUnmasked 0x7F80000100000000) = .ok ((holdingUnmasked 0x7F80000100000000).vec 128 1) ∧
      ¬ Masked (holdingUnmasked 0x7F80000100000000) (flags4 (f32ToF64 (holdingUnmasked 0x7F80000100000000).daz) ((holdingUnmasked 0x7F80000100000000).vec 128 1))) :=
  ⟨⟨holding_ready _, rfl, masked_of_1f80 rfl _⟩,
    ⟨holdingUnmasked_ready _, rfl, not_masked_of_invalid rfl (by decide +kernel)⟩,
    ⟨holding_vexReady _, rfl, masked_of_1f80 rfl _⟩,
    ⟨holdingUnmasked_vexReady _, rfl, not_masked_of_invalid rfl (by decide +kernel)⟩,
    ⟨holding_vexReady _, rfl, masked_of_1f80 rfl _⟩,
    ⟨holdingUnmasked_vexReady _, rfl, not_masked_of_invalid rfl (by decide +kernel)⟩⟩

theorem test_witness_MmxDestinationFormsConvertToInteger_cvtpd2pi :
    (LegacyReady (holding 0x3FF80000000000000000000000000000) (holding 0x3FF80000000000000000000000000000).params.sse2 ∧
      legacySource 128 true plain 4 (.reg 1) (holding 0x3FF80000000000000000000000000000) = .ok ((holding 0x3FF80000000000000000000000000000).vec 128 1) ∧
      Masked (holding 0x3FF80000000000000000000000000000) (flags2 (f64ToI32 (holding 0x3FF80000000000000000000000000000).rc (holding 0x3FF80000000000000000000000000000).daz) ((holding 0x3FF80000000000000000000000000000).vec 128 1))) ∧
    (LegacyReady (holdingUnmasked 0x3FF80000000000000000000000000000) (holdingUnmasked 0x3FF80000000000000000000000000000).params.sse2 ∧
      legacySource 128 true plain 4 (.reg 1) (holdingUnmasked 0x3FF80000000000000000000000000000) = .ok ((holdingUnmasked 0x3FF80000000000000000000000000000).vec 128 1) ∧
      ¬ Masked (holdingUnmasked 0x3FF80000000000000000000000000000) (flags2 (f64ToI32 (holdingUnmasked 0x3FF80000000000000000000000000000).rc (holdingUnmasked 0x3FF80000000000000000000000000000).daz) ((holdingUnmasked 0x3FF80000000000000000000000000000).vec 128 1))) :=
  ⟨⟨holding_ready _, rfl, masked_of_1f80 rfl _⟩,
    ⟨holdingUnmasked_ready _, rfl, not_masked_of_precision rfl (by decide +kernel)⟩⟩

theorem test_witness_MmxDestinationFormsConvertToInteger_cvtps2pi :
    (LegacyReady (holding 0x3FC0000000000000) (holding 0x3FC0000000000000).params.sse2 ∧
      legacySource 64 false plain 4 (.reg 1) (holding 0x3FC0000000000000) = .ok ((holding 0x3FC0000000000000).vec 64 1) ∧
      Masked (holding 0x3FC0000000000000) (flags2 (f32ToI32 (holding 0x3FC0000000000000).rc (holding 0x3FC0000000000000).daz) ((holding 0x3FC0000000000000).vec 64 1))) ∧
    (LegacyReady (holdingUnmasked 0x3FC0000000000000) (holdingUnmasked 0x3FC0000000000000).params.sse2 ∧
      legacySource 64 false plain 4 (.reg 1) (holdingUnmasked 0x3FC0000000000000) = .ok ((holdingUnmasked 0x3FC0000000000000).vec 64 1) ∧
      ¬ Masked (holdingUnmasked 0x3FC0000000000000) (flags2 (f32ToI32 (holdingUnmasked 0x3FC0000000000000).rc (holdingUnmasked 0x3FC0000000000000).daz) ((holdingUnmasked 0x3FC0000000000000).vec 64 1))) :=
  ⟨⟨holding_ready _, rfl, masked_of_1f80 rfl _⟩,
    ⟨holdingUnmasked_ready _, rfl, not_masked_of_precision rfl (by decide +kernel)⟩⟩

theorem test_witness_MmxDestinationFormsConvertToInteger_pending :
    (holding 0).x87Pending = false ∧ (holdingUnmasked 0).x87Pending = false ∧ (holding 0).params.sse = true := ⟨rfl, rfl, rfl⟩

/-- Register and memory operand; the masked state and one with precision unmasked. -/
theorem test_witness_MmxSourceFormsConvertToFloat :
    LegacyReady launched launched.params.sse2 ∧ LegacyReady launched launched.params.sse ∧ launched.x87Pending = false ∧
    Masked launched (flags2 (i32ToF32 launched.rc) (0x0100000100000000 : BitVec 64)) ∧
    (LegacyReady (unmaskedState.writeMm 7 0x0100000100000000) true ∧
      mmxSource plain 4 (.reg 7) (unmaskedState.writeMm 7 0x0100000100000000) = .ok 0x0100000100000000 ∧
      ¬ Masked (unmaskedState.writeMm 7 0x0100000100000000)
        (flags2 (i32ToF32 (unmaskedState.writeMm 7 0x0100000100000000).rc) (0x0100000100000000 : BitVec 64))) :=
  ⟨launched_ready, launched_ready, rfl, masked_of_1f80 rfl _, ⟨rfl, rfl, rfl, .inl rfl, rfl⟩,
    eq_ok_of (by decide +kernel), not_masked_of_precision rfl (by decide +kernel)⟩

theorem test_witness_Cvtsd2siConvertsToGeneralRegister_32 :
    (LegacyReady (holding 0x3FF8000000000000) (holding 0x3FF8000000000000).params.sse2 ∧
      legacySource 64 false plain 4 (.reg 1) (holding 0x3FF8000000000000) = .ok ((holding 0x3FF8000000000000).vec 64 1) ∧
      Masked (holding 0x3FF8000000000000) (f64ToI32 (holding 0x3FF8000000000000).rc (holding 0x3FF8000000000000).daz ((holding 0x3FF8000000000000).vec 64 1)).flags) ∧
    (LegacyReady (holdingUnmasked 0x3FF8000000000000) (holdingUnmasked 0x3FF8000000000000).params.sse2 ∧
      legacySource 64 false plain 4 (.reg 1) (holdingUnmasked 0x3FF8000000000000) = .ok ((holdingUnmasked 0x3FF8000000000000).vec 64 1) ∧
      ¬ Masked (holdingUnmasked 0x3FF8000000000000) (f64ToI32 (holdingUnmasked 0x3FF8000000000000).rc (holdingUnmasked 0x3FF8000000000000).daz ((holdingUnmasked 0x3FF8000000000000).vec 64 1)).flags) ∧
    (VexReady (holding 0x3FF8000000000000) ∧
      vexSource 64 vex2 4 (.reg 1) (holding 0x3FF8000000000000) = .ok ((holding 0x3FF8000000000000).vec 64 1) ∧
      Masked (holding 0x3FF8000000000000) (f64ToI32 (holding 0x3FF8000000000000).rc (holding 0x3FF8000000000000).daz ((holding 0x3FF8000000000000).vec 64 1)).flags) ∧
    (VexReady (holdingUnmasked 0x3FF8000000000000) ∧
      vexSource 64 vex2 4 (.reg 1) (holdingUnmasked 0x3FF8000000000000) = .ok ((holdingUnmasked 0x3FF8000000000000).vec 64 1) ∧
      ¬ Masked (holdingUnmasked 0x3FF8000000000000) (f64ToI32 (holdingUnmasked 0x3FF8000000000000).rc (holdingUnmasked 0x3FF8000000000000).daz ((holdingUnmasked 0x3FF8000000000000).vec 64 1)).flags) :=
  ⟨⟨holding_ready _, rfl, masked_of_1f80 rfl _⟩,
    ⟨holdingUnmasked_ready _, rfl, not_masked_of_precision rfl (by decide +kernel)⟩,
    ⟨holding_vexReady _, rfl, masked_of_1f80 rfl _⟩,
    ⟨holdingUnmasked_vexReady _, rfl, not_masked_of_precision rfl (by decide +kernel)⟩⟩

theorem test_witness_Cvtsd2siConvertsToGeneralRegister_64 :
    (LegacyReady (holding 0x3FF8000000000000) (holding 0x3FF8000000000000).params.sse2 ∧
      legacySource 64 false plain 4 (.reg 1) (holding 0x3FF8000000000000) = .ok ((holding 0x3FF8000000000000).vec 64 1) ∧
      Masked (holding 0x3FF8000000000000) (f64ToI64 (holding 0x3FF8000000000000).rc (holding 0x3FF8000000000000).daz ((holding 0x3FF8000000000000).vec 64 1)).flags) ∧
    (LegacyReady (holdingUnmasked 0x3FF8000000000000) (holdingUnmasked 0x3FF8000000000000).params.sse2 ∧
      legacySource 64 false plain 4 (.reg 1) (holdingUnmasked 0x3FF8000000000000) = .ok ((holdingUnmasked 0x3FF8000000000000).vec 64 1) ∧
      ¬ Masked (holdingUnmasked 0x3FF8000000000000) (f64ToI64 (holdingUnmasked 0x3FF8000000000000).rc (holdingUnmasked 0x3FF8000000000000).daz ((holdingUnmasked 0x3FF8000000000000).vec 64 1)).flags) ∧
    (VexReady (holding 0x3FF8000000000000) ∧
      vexSource 64 vex2 4 (.reg 1) (holding 0x3FF8000000000000) = .ok ((holding 0x3FF8000000000000).vec 64 1) ∧
      Masked (holding 0x3FF8000000000000) (f64ToI64 (holding 0x3FF8000000000000).rc (holding 0x3FF8000000000000).daz ((holding 0x3FF8000000000000).vec 64 1)).flags) ∧
    (VexReady (holdingUnmasked 0x3FF8000000000000) ∧
      vexSource 64 vex2 4 (.reg 1) (holdingUnmasked 0x3FF8000000000000) = .ok ((holdingUnmasked 0x3FF8000000000000).vec 64 1) ∧
      ¬ Masked (holdingUnmasked 0x3FF8000000000000) (f64ToI64 (holdingUnmasked 0x3FF8000000000000).rc (holdingUnmasked 0x3FF8000000000000).daz ((holdingUnmasked 0x3FF8000000000000).vec 64 1)).flags) :=
  ⟨⟨holding_ready _, rfl, masked_of_1f80 rfl _⟩,
    ⟨holdingUnmasked_ready _, rfl, not_masked_of_precision rfl (by decide +kernel)⟩,
    ⟨holding_vexReady _, rfl, masked_of_1f80 rfl _⟩,
    ⟨holdingUnmasked_vexReady _, rfl, not_masked_of_precision rfl (by decide +kernel)⟩⟩

theorem test_witness_Cvtsd2siConvertsToGeneralRegister_mode :
    launched.mode64 = true ∧ launched32.mode64 = false ∧ LegacyReady launched32 launched32.params.sse2 ∧ VexReady launched32 ∧
    legacySource 64 false plain 4 (.reg 1) launched32 = .ok (launched32.vec 64 1) ∧
    vexSource 64 vex3 5 (.reg 1) launched32 = .ok (launched32.vec 64 1) ∧
    Masked launched32 (f64ToI32 launched32.rc launched32.daz (launched32.vec 64 1)).flags :=
  ⟨by decide, by decide, launched32_ready, launched32_vexReady, rfl, rfl, masked_of_1f80 rfl _⟩

end Sys2Proof.Tests
end

section
/-! What a completed instruction does, said once for the 26 forms, and the statements of `10_state.md` that follow: the MXCSR
flags (R38), the MMX transition (R28), the instruction pointer (R34) and the upper halves of the vector registers (R22). -/

namespace Sys2Proof.Machine

/-! ### MXCSR under a commit -/

/-- The 26 bits of MXCSR above the flags are not touched by an OR with a flag set (R38, R171). -/
theorem extractLsb'_or_flags (m : BitVec 32) (f : FpFlags) :
    (m ||| f.bits.setWidth 32).extractLsb' 6 26 = m.extractLsb' 6 26 := by
  apply BitVec.eq_of_getLsbD_eq
  intro k hk
  simp [hk]

/-- No conversion raises ZE (R36, R170). -/
theorem FpFlags.getElem_bits_two (f : FpFlags) : f.bits[2] = false := by
  obtain ⟨i, d, o, u, p⟩ := f
  revert i d o u p
  decide

/-! ### The next instruction pointer -/

/-- `pc + ilen` as a number (R34). -/
theorem State.toNat_nextPc (s : State) (n : Nat) :
    (s.nextPc n).toNat = (s.pc.toNat + n) % (if s.mode64 then 2 ^ 64 else 2 ^ 32) := by
  unfold State.nextPc
  split
  · simp
  · simp only [BitVec.toNat_setWidth, BitVec.toNat_add, BitVec.toNat_ofNat]
    omega

/-! ### The shape of an instruction (R91) -/

theorem vexShape_of_vexFields {i : Instr} {f : Form} {e : VexEnc} {d : Fin 16} {src : RM 16}
    (h : i.fields = vexFields f e d src) (hf : f.vex = true) : vexShape i = true := by
  rw [vexShape, h]; exact hf

theorem vexShape_of_legacyFields {i : Instr} {f : Form} {e : LegacyEnc} {d : Fin 16} {src : RM 16}
    (h : i.fields = legacyFields f e d src) (hf : f.vex = false) : vexShape i = false := by
  rw [vexShape, h]; exact hf

/-! ### What a completed instruction does -/

/-- The registers that an instruction writes. -/
structure Writes (i : Instr) (v : Option VecReg) (m : Option MmxReg) (g : Option GenReg) : Prop where
  vec : vecDestination i = v
  mmx : mmxDestination i = m
  gpr : gprDestination i = g

/-- Bits 255:128 of a vector register are as before: the legacy discipline (R22 (a)). -/
def UpperKept (s t : State) (d : VecReg) : Prop := t.ymm[d].extractLsb' 128 128 = s.ymm[d].extractLsb' 128 128

/-- The five ways in which a form that has raised the flag set `f` completes. -/
inductive Completed (i : Instr) (s t : State) (f : FpFlags) : Prop where
  /-- A legacy form with a vector destination and no MMX operand read. -/
  | legacyVector {d : VecReg} (writes : Writes i (some d) none none) (transition : performsTransition i = false)
      (commit : VecCommit s t d f i.len) (upper : UpperKept s t d)
  /-- A VEX form with a vector destination. -/
  | vexVector {d : VecReg} (writes : Writes i (some d) none none) (transition : performsTransition i = false)
      (shape : vexShape i = true) (commit : VecCommit s t d f i.len)
  /-- A legacy form with a vector destination that performs the transition (R220, R221). -/
  | mmxSource {d : VecReg} (writes : Writes i (some d) none none) (transition : performsTransition i = true)
      (commit : MmxSourceCommit s t d f i.len) (upper : UpperKept s t d)
  /-- A form with an MMX destination (R203, R236). -/
  | mmxDestination {d : MmxReg} (writes : Writes i none (some d) none) (transition : performsTransition i = true)
      (commit : MmxCommit s t d f i.len)
  /-- A form with a general destination (R250 to R253). -/
  | gprDestination {d : GenReg} (writes : Writes i none none (some d)) (transition : performsTransition i = false)
      (commit : GprCommit s t d f i.len)

/-- A legacy write keeps the upper half (R22 (a)). -/
theorem upperKept_of_set {s t : State} {d : VecReg} {v : BitVec 128}
    (h : t.ymm = s.ymm.set d (s.ymm[d].extractLsb' 128 128 ++ v)) : UpperKept s t d := by
  simp only [UpperKept, h, Fin.getElem_fin, Vector.getElem_set_self, BitVec.extractLsb'_append_eq_left]

/-- So does the write of CVTPI2PS (R221). -/
theorem upperKept_of_set_low {s t : State} {d : VecReg} {v : BitVec 64}
    (h : t.ymm = s.ymm.set d (s.ymm[d].extractLsb' 64 192 ++ v)) : UpperKept s t d := by
  simp only [UpperKept, h, Fin.getElem_fin, Vector.getElem_set_self]
  apply BitVec.eq_of_getLsbD_eq
  intro k hk
  simp only [BitVec.getLsbD_extractLsb', BitVec.getLsbD_append]
  simp [hk, show ¬ 128 + k < 64 by omega, show 128 + k - 64 < 192 by omega, show 64 + (128 + k - 64) = 128 + k by omega]

/-- A conversion completes as its write does. -/
theorem completed_of_write {i : Instr} {s t : State} {b w : Nat} {check : Option Stop} {source : Except Stop (BitVec w)}
    {convert : BitVec w → List (Conv b)} {write : State → List (Conv b) → State}
    (h : runConversion check source convert write i.len s = .next t)
    (hc : ∀ f rs, Completed i s ((write (s.raiseFlags f) rs).retire i.len) f) : ∃ f, Completed i s t f := by
  obtain ⟨-, v, -, -, rfl⟩ := runConversion_eq_next_iff.1 h
  exact ⟨_, hc _ _⟩

/-- A next state of `exec` is a completion in one of the five ways, for every form. -/
theorem exec_completed {i : Instr} {s t : State} (h : exec i s = .next t) : ∃ f, Completed i s t f := by
  cases i with
  | cvtdq2pd _ d _ | cvtdq2ps _ d _ | cvtpd2dq _ d _ | cvtpd2ps _ d _ | cvtps2dq _ d _ | cvtps2pd _ d _ =>
    exact completed_of_write (write := fun u rs => u.writeXmm d (packLanes 128 rs)) h fun _ _ =>
      .legacyVector ⟨rfl, rfl, rfl⟩ rfl (vecCommit_writeXmm ..) (upperKept_of_set rfl)
  | vcvtdq2pd128 _ d _ | vcvtdq2pd256 _ d _ | vcvtdq2ps128 _ d _ | vcvtdq2ps256 _ d _
  | vcvtpd2dq128 _ d _ | vcvtpd2dq256 _ d _ | vcvtpd2ps128 _ d _ | vcvtpd2ps256 _ d _
  | vcvtps2dq128 _ d _ | vcvtps2dq256 _ d _ | vcvtps2pd128 _ d _ | vcvtps2pd256 _ d _ =>
    exact completed_of_write (write := fun u rs => u.writeYmm d (packLanes 256 rs)) h fun _ _ =>
      .vexVector ⟨rfl, rfl, rfl⟩ rfl (vexShape_of_vexFields rfl rfl) (vecCommit_writeYmm ..)
  | cvtpi2pd e d src =>
    cases src with
    | reg r =>
      simp only [exec, execCvtpi2pd, RM.isReg, if_true] at h
      exact completed_of_write h fun _ _ =>
        .mmxSource ⟨rfl, rfl, rfl⟩ rfl (mmxSourceCommit_writeXmm ..) (upperKept_of_set rfl)
    | mem m =>
      exact completed_of_write (write := fun u rs => u.writeXmm d (packLanes 128 rs)) h fun _ _ =>
        .legacyVector ⟨rfl, rfl, rfl⟩ rfl (vecCommit_writeXmm ..) (upperKept_of_set rfl)
  | cvtpi2ps _ d _ =>
    exact completed_of_write (write := fun u rs => (u.writeXmmLow d (packLanes 64 rs)).mmxTransition) h fun _ _ =>
      .mmxSource ⟨rfl, rfl, rfl⟩ rfl (mmxSourceCommit_writeXmmLow ..) (upperKept_of_set_low rfl)
  | cvtpd2pi _ d _ | cvtps2pi _ d _ =>
    exact completed_of_write (write := fun u rs => (u.writeMm d (packLanes 64 rs)).mmxTransition) h fun _ _ =>
      .mmxDestination ⟨rfl, rfl, rfl⟩ rfl (mmxCommit_writeMm ..)
  | cvtsd2si32 _ d _ | vcvtsd2si32 _ d _ =>
    exact completed_of_write (write := fun u rs => u.writeGpr32 d (packLanes 32 rs)) h fun _ _ =>
      .gprDestination ⟨rfl, rfl, rfl⟩ rfl (gprCommit_writeGpr32 ..)
  | cvtsd2si64 | vcvtsd2si64 =>
    simp only [exec, execCvtsd2si64, execVcvtsd2si64] at h
    split at h
    · exact completed_of_write h fun _ _ => .gprDestination ⟨rfl, rfl, rfl⟩ rfl (gprCommit_writeGpr64 ..)
    · exact completed_of_write h fun _ _ => .gprDestination ⟨rfl, rfl, rfl⟩ rfl (gprCommit_writeGpr32 ..)

/-- However a form completes, its commit is that of R171 and R34. -/
theorem Completed.committed {i : Instr} {s t : State} {f : FpFlags} (h : Completed i s t f) : Committed s t f i.len := by
  cases h with
  | legacyVector _ _ c _ | vexVector _ _ _ c | mmxSource _ _ c _ | mmxDestination _ _ c | gprDestination _ _ c => exact c.commit

/-- A form that performs the transition leaves it performed (R28). -/
theorem Completed.transitioned {i : Instr} {s t : State} {f : FpFlags} (h : Completed i s t f)
    (hp : performsTransition i = true) : Transitioned s t := by
  cases h with
  | mmxSource _ _ c _ | mmxDestination _ _ c => exact c.transition
  | legacyVector _ hn _ _ | vexVector _ hn _ _ | gprDestination _ hn _ => simp [hn] at hp

/-- A form that does not perform the transition leaves the whole x87 state (R28). -/
theorem Completed.sameX87 {i : Instr} {s t : State} {f : FpFlags} (h : Completed i s t f)
    (hp : performsTransition i = false) : SameX87 s t := by
  cases h with
  | legacyVector _ _ c _ | vexVector _ _ _ c | gprDestination _ _ c => exact c.x87
  | mmxSource _ hn _ _ | mmxDestination _ hn _ => simp [hn] at hp

/-- Every legacy form keeps the upper half of its vector destination (R22 (a)). -/
theorem Completed.upperKept {i : Instr} {s t : State} {f : FpFlags} {d : VecReg} (h : Completed i s t f)
    (hv : vexShape i = false) (hd : vecDestination i = some d) : UpperKept s t d := by
  cases h with
  | legacyVector w _ _ u | mmxSource w _ _ u =>
    obtain rfl : _ = d := Option.some.inj (w.vec.symm.trans hd)
    exact u
  | vexVector _ _ hx _ => simp [hx] at hv
  | mmxDestination w _ _ | gprDestination w _ _ => simp [w.vec] at hd

/-! ### VEX forms with a vector destination -/

/-- The execution of a VEX form with the vector destination `d`, taken apart: `lanes` elements are read
from the source and converted each on its own, and the results are the whole of `YMM[d]` (R22 (b), R170). -/
structure VexVectorForm (i : Instr) (d : VecReg) where
  form : Form
  enc : VexEnc
  src : RM 16
  (elementBits resultBits sourceBits lanes : Nat)
  convert : State → BitVec elementBits → Conv resultBits
  fields_eq : i.fields = vexFields form enc d src
  convert_writeYmm : ∀ s r x, convert (State.writeYmm s r x) = convert s
  /-- The results of these forms fill at most the lower half. -/
  narrow : (form.l = false ∨ form = .vcvtpd2dq256 ∨ form = .vcvtpd2ps256) → lanes * resultBits ≤ 128
  exec_eq : ∀ s, exec i s =
    runConversion s.admitVex (vexSource sourceBits enc i.len src s) (convLanes lanes (convert s))
      (fun t rs => t.writeYmm d (packLanes 256 rs)) i.len s

/-- Every VEX form with a vector destination is of this kind: rows 2, 3, 5, 6, 8, 9, 12, 13, 17, 18, 20 and 21 of R118. -/
theorem vexVectorForm_of_destination {i : Instr} {d : VecReg} (hv : vexShape i = true) (hd : vecDestination i = some d) :
    Nonempty (VexVectorForm i d) := by
  cases i with
  | vcvtdq2pd128 e _ src | vcvtdq2pd256 e _ src =>
    cases hd
    exact ⟨_, e, src, 32, 64, _, _, fun _ => i32ToF64, rfl, fun _ _ _ => rfl, by decide, fun _ => rfl⟩
  | vcvtdq2ps128 e _ src | vcvtdq2ps256 e _ src =>
    cases hd
    exact ⟨_, e, src, 32, 32, _, _, fun s => i32ToF32 s.rc, rfl, fun _ _ _ => rfl, by decide, fun _ => rfl⟩
  | vcvtpd2dq128 e _ src | vcvtpd2dq256 e _ src =>
    cases hd
    exact ⟨_, e, src, 64, 32, _, _, fun s => f64ToI32 s.rc s.daz, rfl, fun _ _ _ => rfl, by decide, fun _ => rfl⟩
  | vcvtpd2ps128 e _ src | vcvtpd2ps256 e _ src =>
    cases hd
    exact ⟨_, e, src, 64, 32, _, _, fun s => f64ToF32 s.rc s.daz s.fz s.um, rfl, fun _ _ _ => rfl, by decide,
      fun _ => rfl⟩
  | vcvtps2dq128 e _ src | vcvtps2dq256 e _ src =>
    cases hd
    exact ⟨_, e, src, 32, 32, _, _, fun s => f32ToI32 s.rc s.daz, rfl, fun _ _ _ => rfl, by decide, fun _ => rfl⟩
  | vcvtps2pd128 e _ src | vcvtps2pd256 e _ src =>
    cases hd
    exact ⟨_, e, src, 32, 64, _, _, fun s => f32ToF64 s.daz, rfl, fun _ _ _ => rfl, by decide, fun _ => rfl⟩
  | vcvtsd2si32 | vcvtsd2si64 => cases hd
  | _ => cases hv.symm.trans (vexShape_of_legacyFields rfl rfl)

/-- The destination after completion: the converted elements of the source, and nothing of its old value (R22 (b)). -/
theorem VexVectorForm.ymm_of_next {i : Instr} {d : VecReg} (F : VexVectorForm i d) {s t : State} (h : exec i s = .next t) :
    ∃ v, vexSource F.sourceBits F.enc i.len F.src s = .ok v ∧
      t.ymm[d] = packLanes 256 (convLanes F.lanes (F.convert s) v) := by
  rw [F.exec_eq] at h
  obtain ⟨-, v, hv, -, rfl⟩ := runConversion_eq_next_iff.1 h
  exact ⟨v, hv, by simp⟩

@[simp] theorem length_convLanes {a b w : Nat} (n : Nat) (f : BitVec a → Conv b) (v : BitVec w) :
    (convLanes n f v).length = n := by
  simp [convLanes]

/-- Results that fill at most the lower half leave zeros in the upper half. -/
theorem extractLsb'_packLanes_upper {b : Nat} {l : List (Conv b)} (h : l.length * b ≤ 128) :
    (packLanes 256 l).extractLsb' 128 128 = 0 := by
  rw [packLanes_zero_above (n := 128) (m := 128) l h, BitVec.extractLsb'_append_eq_left]
  rfl

/-- The page fault of a load rests on CPL and the answers alone (R73, R261). -/
theorem firstPageFault_congr {s t : State} (h : t.cpl = s.cpl) (l : List (Word × Answer)) :
    firstPageFault t l = firstPageFault s l := by
  induction l with
  | nil => rfl
  | cons x l ih =>
    obtain ⟨a, _ | _ | _⟩ := x
    · exact ih
    · simp [firstPageFault, h]
    · exact ih

/-- What is read from memory does not depend on a vector register. -/
theorem memRead_writeYmm {w : Nat} (s : State) (d : VecReg) (x : BitVec 256) (g : Seg) (a : Word) (al : Bool) :
    memRead w (s.writeYmm d x) g a al = memRead w s g a al := by
  have hp : ∀ l, firstPageFault (s.writeYmm d x) l = firstPageFault s l := firstPageFault_congr rfl
  unfold memRead loadFault
  rw [hp]
  rfl

/-- Neither does a memory operand, whose address rests on general registers and `pc` (R70). -/
theorem loadOperand_writeYmm {w : Nat} (al : Bool) (seg : Option Seg) (a32 : Bool) (len : Nat) (m : Mem) (s : State)
    (d : VecReg) (x : BitVec 256) :
    loadOperand w al seg a32 len m (s.writeYmm d x) = loadOperand w al seg a32 len m s := by
  have ha : Mem.linear m seg a32 len (s.writeYmm d x) = Mem.linear m seg a32 len s := linear_congr rfl rfl rfl rfl rfl
  rw [loadOperand, memRead_writeYmm, ha]
  rfl

/-- The source of a VEX form does not depend on a register that it is not (R180). -/
theorem vexSource_writeYmm_of_ne {w : Nat} (e : VexEnc) (len : Nat) {src : RM 16} {d : VecReg} (h : src ≠ .reg d) (s : State)
    (x : BitVec 256) : vexSource w e len src (s.writeYmm d x) = vexSource w e len src s := by
  cases src with
  | reg r =>
    have hne : d.val ≠ r.val := fun he => h (congrArg RM.reg (Fin.ext he.symm))
    simp [State.vec, Vector.getElem_set_ne _ _ hne]
  | mem m => exact loadOperand_writeYmm ..

/-! ### A fetch that runs over the top of the address space -/

/-- The fetch window of a `pc` from which `k` admitted bytes reach up to the top of the address space (R34). -/
theorem fetchWindow_to_top {s : State} {k : Nat} (hk : k < 15) (htop : s.pc.toNat + k = s.addressLimit)
    (hadmit : ∀ j, j < k → Admission.answer s.fetchMap (s.pc.toNat + j) = .granted) :
    fetchWindow s = ((List.range k).map fun j => s.mem.read (s.pc.toNat + j), .refuse .wrapsAddressSpace) := by
  obtain ⟨n, hn⟩ : ∃ n, maxLen = k + (n + 1) := ⟨14 - k, by simp only [maxLen]; omega⟩
  have hstop : fetchFrom s (s.pc.toNat + k) (n + 1) = ([], .refuse .wrapsAddressSpace) := by
    simp [fetchFrom, htop]
  have htext := fetchFrom_text (s := s) (a := s.pc.toNat) (n := n + 1)
    (bytes := (List.range k).map fun j => s.mem.read (s.pc.toNat + j)) (by simp [htop])
    (fun j hj => ⟨hadmit j (by simpa using hj), by simp⟩)
  simpa [fetchWindow, hn, hstop] using htext

/-- An instruction that the fetch window cuts short ends as the window does (R73, R92). -/
theorem step_of_short {s : State} (hm : s.mode.modelled = true) (hd : decodeAt s = .short) :
    step s = (fetchWindow s).2.out := by
  simp [step, hm, hd]

/-! ### The faulted state (R262) -/

@[simp] theorem State.atFault_x87Top (s : State) (f : Fault) : (s.atFault f).x87Top = s.x87Top := by
  cases f <;> rfl

@[simp] theorem State.atFault_x87Tag (s : State) (f : Fault) : (s.atFault f).x87Tag = s.x87Tag := by
  cases f <;> rfl

@[simp] theorem State.atFault_pc (s : State) (f : Fault) : (s.atFault f).pc = s.pc := by
  cases f <;> rfl

/-! ### The statements -/

/-- Settles O16: a completed step ORs a flag set without ZE into MXCSR. -/
theorem mxcsrFlagsAreStickyAndControlsKept : Obligations.MxcsrFlagsAreStickyAndControlsKept := by
  intro s t h
  obtain ⟨-, i, rest, -, hx⟩ := step_eq_next h
  obtain ⟨f, hc⟩ := exec_completed hx
  rw [hc.committed.mxcsr]
  refine ⟨fun k _ hs => ?_, ?_, extractLsb'_or_flags _ _⟩
  · simp [hs]
  · simp [f.getElem_bits_two]

/-- Settles O19, from the five ways in which a form completes. -/
theorem mmxTransitionExactlyWhereStated : Obligations.MmxTransitionExactlyWhereStated := by
  refine ⟨fun i s t h => ?_, fun _ _ _ => ⟨rfl, rfl⟩, fun _ _ _ => rfl, fun _ _ _ _ => ⟨rfl, rfl⟩,
    fun s f => ⟨s.atFault_x87Top f, s.atFault_x87Tag f⟩⟩
  obtain ⟨f, hc⟩ := exec_completed h
  exact ⟨fun hp => ⟨(hc.transitioned hp).top, (hc.transitioned hp).tag⟩,
    fun hp => ⟨(hc.sameX87 hp).top, (hc.sameX87 hp).tag⟩⟩

/-- Settles O20: the commit moves `pc`, and a fetch up to the top of the address space ends in the wrap-around refusal. -/
theorem stepMovesPcPastTheInstruction : Obligations.StepMovesPcPastTheInstruction := by
  refine ⟨fun s t h => ?_, State.atFault_pc, fun s k hm hk htop hadmit hshort => ?_⟩
  · obtain ⟨-, i, rest, hd, hx⟩ := step_eq_next h
    obtain ⟨f, hc⟩ := exec_completed hx
    exact ⟨i, rest, hd, by rw [hc.committed.pc, State.toNat_nextPc]⟩
  · have hw := fetchWindow_to_top hk htop hadmit
    have hd : decodeAt s = .short := by rw [decodeAt, hw]; exact hshort
    rw [step_of_short hm hd, hw]
    rfl

/-- Settles O21: a legacy form writes below bit 128 only; a VEX form's destination is its packed results. -/
theorem upperBitsFollowTheEncoding : Obligations.UpperBitsFollowTheEncoding := by
  intro i s t d h hd
  obtain ⟨f, hc⟩ := exec_completed h
  have zeroed : vexShape i = true →
      i.fields.form.l = false ∨ i.fields.form = .vcvtpd2dq256 ∨ i.fields.form = .vcvtpd2ps256 →
      t.ymm[d].extractLsb' 128 128 = 0 := by
    intro hv hn
    obtain ⟨F⟩ := vexVectorForm_of_destination hv hd
    obtain ⟨v, -, ht⟩ := F.ymm_of_next h
    rw [ht]
    exact extractLsb'_packLanes_upper (by rw [length_convLanes]; exact F.narrow (by rwa [F.fields_eq] at hn))
  refine ⟨fun hv => hc.upperKept hv hd, fun hv hl => zeroed hv (.inl hl), fun hf => ?_, fun hv hne x t' h' => ?_⟩
  · have hv : vexShape i = true := by rcases hf with hf | hf <;> (rw [vexShape, hf]; rfl)
    exact zeroed hv (.inr hf)
  · obtain ⟨F⟩ := vexVectorForm_of_destination hv hd
    obtain ⟨v, hs, ht⟩ := F.ymm_of_next h
    obtain ⟨v', hs', ht'⟩ := F.ymm_of_next h'
    rw [vexSource_writeYmm_of_ne _ _ (by rwa [F.fields_eq] at hne), hs] at hs'
    cases hs'
    rw [ht', ht, F.convert_writeYmm]

end Sys2Proof.Machine
end

section
/-! The address computation of R70 and R71: the machine's 64-bit arithmetic on base, index and displacement against the exact
integer sum, and the segment base (R48). -/

namespace Sys2Proof.Machine

/-! ### Words that stand for integers -/

/-- The word and the integer agree modulo `2 ^ bits`. -/
def Represents (bits : Nat) (v : Word) (x : Int) : Prop := (v.toNat : Int) ≡ x [ZMOD (2 ^ bits : Nat)]

section
variable {bits : Nat}

/-- Reduction modulo `2^64` keeps the residue modulo a smaller power of two. -/
theorem emod_word_modEq (h : bits ≤ 64) (x : Int) : x % (2 ^ 64 : Nat) ≡ x [ZMOD (2 ^ bits : Nat)] :=
  Int.emod_emod_of_dvd x (Int.natCast_dvd_natCast.2 (Nat.pow_dvd_pow 2 h))

theorem Represents.add (h : bits ≤ 64) {v w : Word} {x y : Int} (hv : Represents bits v x) (hw : Represents bits w y) :
    Represents bits (v + w) (x + y) := by
  rw [Represents, BitVec.toNat_add, Int.natCast_mod, Int.natCast_add]
  exact (emod_word_modEq h _).trans (Int.ModEq.add hv hw)

theorem Represents.mul (h : bits ≤ 64) {v w : Word} {x y : Int} (hv : Represents bits v x) (hw : Represents bits w y) :
    Represents bits (v * w) (x * y) := by
  rw [Represents, BitVec.toNat_mul, Int.natCast_mod, Int.natCast_mul]
  exact (emod_word_modEq h _).trans (Int.ModEq.mul hv hw)

theorem represents_ofInt (h : bits ≤ 64) (x : Int) : Represents bits (BitVec.ofInt 64 x) x := by
  rw [Represents, BitVec.toNat_ofInt, Int.toNat_of_nonneg (Int.emod_nonneg _ (by decide))]
  exact emod_word_modEq h x

theorem represents_ofNat (h : bits ≤ 64) (n : Nat) : Represents bits (BitVec.ofNat 64 n) n := by
  rw [← BitVec.ofInt_natCast]
  exact represents_ofInt h n

/-- A sign-extended displacement (R109). -/
theorem represents_signExtend (h : bits ≤ 64) {n : Nat} (d : BitVec n) : Represents bits (d.signExtend 64) d.toInt :=
  represents_ofInt h d.toInt

theorem represents_toNat (v : Word) : Represents bits v v.toNat := Int.ModEq.refl _

/-! ### The parts of an address -/

/-- A general register, read at the address size (R70). -/
theorem represents_gpr (s : State) (r : GenReg) : Represents bits s.gpr[r] (regAt bits s r) := by
  rw [Represents, regAt, Int.natCast_mod]
  exact (Int.mod_modEq _ _).symm

theorem represents_disp (h : bits ≤ 64) (d : Disp) : Represents bits (Disp.value d) (dispSum d) := by
  cases d with
  | none => exact represents_ofNat h 0
  | disp8 v => exact represents_signExtend h v
  | disp32 v => exact represents_signExtend h v

theorem represents_index (h : bits ≤ 64) (s : State) (i : Option (GenReg × Scale)) :
    Represents bits (indexValue s i) (indexSum bits s i) := by
  cases i with
  | none => exact represents_ofNat h 0
  | some i =>
    obtain ⟨r, sc⟩ := i
    have hp := (represents_gpr s r).mul h (represents_ofNat h (Scale.factor sc))
    cases sc with
    | x1 => simpa [indexValue, indexSum, Scale.factor] using hp
    | x2 | x4 | x8 => exact hp

/-- The machine's sum stands for the exact one, at each address size (R70, R71). -/
theorem represents_sum (h : bits ≤ 64) (m : Mem) (len : Nat) (s : State) :
    Represents bits (Mem.sum m len s) (addressSum bits m len s) := by
  cases m with
  | based b d => exact (represents_gpr s b).add h (represents_disp h d)
  | sib b i d => exact ((represents_gpr s b).add h (represents_index h s i)).add h (represents_disp h d)
  | sibNoBase i d => exact (represents_index h s i).add h (represents_signExtend h d)
  | ripRel d => exact ((represents_toNat s.pc).add h (represents_ofNat h len)).add h (represents_signExtend h d)
  | abs d => exact represents_signExtend h d

end

/-! ### Truncation -/

theorem toNat_low32 (v : Word) : (low32 v).toNat = v.toNat % 2 ^ 32 := by
  simp only [low32, BitVec.toNat_setWidth]
  omega

/-- The effective address is the machine's sum modulo the address size (R70). -/
theorem toNat_effective (m : Mem) (addr32 : Bool) (len : Nat) (s : State) :
    (Mem.effective m addr32 len s).toNat = (Mem.sum m len s).toNat % 2 ^ (if addr32 || !s.mode64 then 32 else 64) := by
  unfold Mem.effective
  split
  · exact toNat_low32 _
  · exact (Nat.mod_eq_of_lt (Mem.sum m len s).isLt).symm

/-- The linear address adds the segment base modulo the address width (R70). -/
theorem toNat_linear (m : Mem) (override : Option Seg) (addr32 : Bool) (len : Nat) (s : State) :
    (Mem.linear m override addr32 len s).toNat =
      ((segBase s (Mem.segment s.mode64 m override)).toNat + (Mem.effective m addr32 len s).toNat) %
        (if s.mode64 then 2 ^ 64 else 2 ^ 32) := by
  unfold Mem.linear
  split
  · exact BitVec.toNat_add _ _
  · rw [toNat_low32, BitVec.toNat_add]
    exact Nat.mod_mod_of_dvd _ (by decide)

/-- Only FS and GS have a base, and only in 64-bit mode (R48). -/
theorem segBase_eq (s : State) (g : Seg) :
    segBase s g = if s.mode64 = true ∧ g = .fs then s.fsBase else if s.mode64 = true ∧ g = .gs then s.gsBase else 0 := by
  unfold segBase
  cases s.mode64 with
  | false => simp
  | true => cases g <;> simp

/-! ### The statement -/

/-- Settles O40: each part of the address stands for its integer, and truncation is reduction modulo the address size. -/
theorem linearAddressIsTheSumModuloTheAddressSize : Obligations.LinearAddressIsTheSumModuloTheAddressSize := by
  refine fun m override addr32 len s => ⟨?_, toNat_linear m override addr32 len s, segBase_eq s⟩
  rintro bits rfl
  rw [toNat_effective, Int.natCast_mod]
  exact represents_sum (by split <;> decide) m len s

end Sys2Proof.Machine
end

section
/-! The execution of every form taken apart along R180: its admission checks, its source, its conversion and its write; and
when a load faults (step 6 of R263). The statements of `20_memory.md` on alignment (R66, R68) and on the bytes that a form
reads (R65) follow. -/

namespace Sys2Proof.Machine

/-! ### The admission checks of a form -/

/-- Steps 3 to 5 of R263 for the instruction. -/
def admission (i : Instr) (s : State) : Option Stop :=
  if vexShape i then s.admitVex else s.admitMmx (legacyFeature i s) (performsTransition i)

/-- A form without the transition takes no pending x87 exception (R270). -/
theorem State.admitMmx_false (s : State) (feature : Bool) : s.admitMmx feature false = s.admitLegacy feature := by
  unfold State.admitMmx
  cases s.admitLegacy feature <;> rfl

theorem admission_of_vexFields {i : Instr} {f : Form} {e : VexEnc} {d : Fin 16} {src : RM 16}
    (h : i.fields = vexFields f e d src) (hf : f.vex = true) (s : State) : admission i s = s.admitVex :=
  if_pos (vexShape_of_vexFields h hf)

theorem admission_of_legacyFields {i : Instr} {f : Form} {e : LegacyEnc} {d : Fin 16} {src : RM 16}
    (h : i.fields = legacyFields f e d src) (hf : f.vex = false) (s : State) :
    admission i s = s.admitMmx (legacyFeature i s) (performsTransition i) :=
  if_neg (by simp [vexShape_of_legacyFields h hf])

/-- No VEX form performs the transition (R28). -/
theorem performsTransition_of_vexShape {i : Instr} (h : vexShape i = true) : performsTransition i = false := by
  cases i with
  | cvtpi2pd | cvtpi2ps | cvtpd2pi | cvtps2pi => cases h.symm.trans (vexShape_of_legacyFields rfl rfl)
  | _ => rfl

/-- Steps 3 to 5 of R263 raise nothing exactly for an admitted instruction. -/
theorem admission_eq_none_iff {i : Instr} {s : State} : admission i s = none ↔ Admitted i s := by
  have hr : Ready i s ↔ if vexShape i then VexReady s else LegacyReady s (legacyFeature i s) := Iff.rfl
  unfold admission
  split at hr
  · rename_i hv
    rw [if_pos hv, State.admitVex_eq_none_iff, ← hr]
    exact ⟨fun h => ⟨h, fun hp => by simp [performsTransition_of_vexShape hv] at hp⟩, fun h => h.ready⟩
  · rename_i hv
    rw [if_neg hv, State.admitMmx_eq_none_iff, ← hr]
    exact ⟨fun ⟨h, hp⟩ => ⟨h, hp⟩, fun h => ⟨h.ready, h.pending⟩⟩

/-- The stops of a legacy form's checks (R264, R266, R267, R300). -/
theorem State.admitLegacy_eq_some {s : State} {feature : Bool} {x : Stop} (h : s.admitLegacy feature = some x) :
    x = .fault .invalidOpcode ∨ x = .refuse .modeOutOfScope ∨ x = .fault .deviceNotAvailable := by
  unfold State.admitLegacy at h
  split at h
  · exact .inl (Option.some.inj h).symm
  split at h
  · exact .inr (.inl (Option.some.inj h).symm)
  split at h
  · exact .inr (.inr (Option.some.inj h).symm)
  · cases h

/-- The stops of a VEX form's checks (R265, R266, R300). -/
theorem State.admitVex_eq_some {s : State} {x : Stop} (h : s.admitVex = some x) :
    x = .fault .invalidOpcode ∨ x = .refuse .modeOutOfScope ∨ x = .fault .deviceNotAvailable := by
  unfold State.admitVex at h
  split at h
  · exact .inl (Option.some.inj h).symm
  split at h
  · exact .inr (.inl (Option.some.inj h).symm)
  split at h
  · exact .inr (.inr (Option.some.inj h).symm)
  · cases h

/-- A form with an MMX operand adds the report of a pending x87 exception to the stops of a legacy form (R270). -/
theorem State.admitMmx_eq_some {s : State} {feature transition : Bool} {x : Stop}
    (h : s.admitMmx feature transition = some x) :
    s.admitLegacy feature = some x ∨ x = if s.ne then .fault .x87FloatingPoint else .refuse .x87ReportedExternally := by
  unfold State.admitMmx at h
  split at h
  · rename_i hl
    exact .inl (hl.trans h)
  split at h
  · exact .inr (Option.some.inj h).symm
  · cases h

/-- The faults that the admission checks can raise (R264 to R267, R270). -/
theorem admission_fault {i : Instr} {s : State} {f : Fault} (h : admission i s = some (.fault f)) :
    f = .invalidOpcode ∨ f = .deviceNotAvailable ∨ f = .x87FloatingPoint := by
  unfold admission at h
  split at h
  · obtain h | h | h := State.admitVex_eq_some h <;> cases h <;> simp
  · obtain h | h := State.admitMmx_eq_some h
    · obtain h | h | h := State.admitLegacy_eq_some h <;> cases h <;> simp
    · split at h
      · exact .inr (.inr (Stop.fault.inj h))
      · cases h

/-! ### The source of a form -/

/-- What `source` reads for the instruction: a register, whatever memory holds, or its memory operand. -/
inductive ReadsSource (i : Instr) {w : Nat} (source : State → Except Stop (BitVec w)) : Prop where
  | register (operand : memoryOperand i = none) (read : State → BitVec w) (eq : ∀ s, source s = .ok (read s))
      (frame : ∀ s mem', read { s with mem := mem' } = read s)
  | memory {m : Mem} (operand : memoryOperand i = some m) (eq : ∀ s, source s = readOperand w i m s)

theorem readsSource_legacy {i : Instr} {f : Form} {e : LegacyEnc} {d : Fin 16} {src : RM 16} {al : Bool}
    (h : i.fields = legacyFields f e d src) (ha : needsAlignment i = al) (w : Nat) :
    ReadsSource i (legacySource w al e i.len src) := by
  subst ha
  cases src with
  | reg r => exact .register (by simp [memoryOperand, h, legacyFields]) (·.vec w r) (fun _ => rfl) fun _ _ => rfl
  | mem m =>
    refine .memory (m := m) (by simp [memoryOperand, h, legacyFields]) fun s => ?_
    simp [readOperand, operandSegment, operandAddress, h, legacyFields, loadOperand]

theorem readsSource_vex {i : Instr} {f : Form} {e : VexEnc} {d : Fin 16} {src : RM 16}
    (h : i.fields = vexFields f e d src) (ha : needsAlignment i = false) (w : Nat) :
    ReadsSource i (vexSource w e i.len src) := by
  cases src with
  | reg r => exact .register (by simp [memoryOperand, h, vexFields]) (·.vec w r) (fun _ => rfl) fun _ _ => rfl
  | mem m =>
    refine .memory (m := m) (by simp [memoryOperand, h, vexFields]) fun s => ?_
    simp [readOperand, operandSegment, operandAddress, h, ha, vexFields, loadOperand]

theorem readsSource_mmx {i : Instr} {f : Form} {e : LegacyEnc} {d : Fin 16} {src : RM 8}
    (h : i.fields = legacyFields f e d (rmOfMmx src)) (ha : needsAlignment i = false) :
    ReadsSource i (mmxSource e i.len src) := by
  cases src with
  | reg r => exact .register (by simp [memoryOperand, h, legacyFields, rmOfMmx]) (·.mm r) (fun _ => rfl) fun _ _ => rfl
  | mem m =>
    refine .memory (m := m) (by simp [memoryOperand, h, legacyFields, rmOfMmx]) fun s => ?_
    simp [readOperand, operandSegment, operandAddress, h, ha, legacyFields, loadOperand]

/-! ### The execution of a form -/

/-- The execution of a form, in 64-bit mode (`m64`) or outside it, taken apart along R180: nothing but its source looks at
memory, and its write keeps memory. -/
structure Conversion (i : Instr) (m64 : Bool) where
  (sourceBits resultBits : Nat)
  source : State → Except Stop (BitVec sourceBits)
  convert : State → BitVec sourceBits → List (Conv resultBits)
  write : State → List (Conv resultBits) → State
  exec_eq : ∀ s, s.mode64 = m64 →
    exec i s = runConversion (admission i s) (source s) (convert s) write i.len s
  reads : ReadsSource i source
  bytes : sourceBits / 8 = loadBytes i
  convert_mem : ∀ s mem', convert { s with mem := mem' } = convert s
  write_mem : ∀ s mem' rs, write { s with mem := mem' } rs = { write s rs with mem := mem' }

theorem conversion_vex {i : Instr} {f : Form} {e : VexEnc} {d : Fin 16} {src : RM 16} {w b : Nat} {m64 : Bool}
    {convert : State → BitVec w → List (Conv b)} {write : State → List (Conv b) → State}
    (h : i.fields = vexFields f e d src) (hf : f.vex = true) (ha : needsAlignment i = false) (hw : w / 8 = loadBytes i)
    (hx : ∀ s, s.mode64 = m64 → exec i s = runConversion s.admitVex (vexSource w e i.len src s) (convert s) write i.len s)
    (hc : ∀ s mem', convert { s with mem := mem' } = convert s)
    (hm : ∀ s mem' rs, write { s with mem := mem' } rs = { write s rs with mem := mem' }) :
    Nonempty (Conversion i m64) :=
  ⟨⟨w, b, _, convert, write, fun s hs => by rw [admission_of_vexFields h hf, hx s hs], readsSource_vex h ha w, hw, hc, hm⟩⟩

theorem conversion_legacy {i : Instr} {f : Form} {e : LegacyEnc} {d : Fin 16} {src : RM 16} {al : Bool} {w b : Nat}
    {m64 : Bool} {convert : State → BitVec w → List (Conv b)} {write : State → List (Conv b) → State}
    (h : i.fields = legacyFields f e d src) (hf : f.vex = false) (hp : performsTransition i = false)
    (ha : needsAlignment i = al) (hw : w / 8 = loadBytes i)
    (hx : ∀ s, s.mode64 = m64 →
      exec i s = runConversion (s.admitLegacy (legacyFeature i s)) (legacySource w al e i.len src s) (convert s) write i.len s)
    (hc : ∀ s mem', convert { s with mem := mem' } = convert s)
    (hm : ∀ s mem' rs, write { s with mem := mem' } rs = { write s rs with mem := mem' }) :
    Nonempty (Conversion i m64) :=
  ⟨⟨w, b, _, convert, write,
    fun s hs => by rw [admission_of_legacyFields h hf, hp, State.admitMmx_false, hx s hs],
    readsSource_legacy h ha w, hw, hc, hm⟩⟩

/-- A form with an MMX operand, whose source may be of either register file. -/
theorem conversion_mmx {i : Instr} {f : Form} {e : LegacyEnc} {d : Fin 16} {rm : RM 16} {w b : Nat} {m64 : Bool}
    {source : State → Except Stop (BitVec w)} {convert : State → BitVec w → List (Conv b)}
    {write : State → List (Conv b) → State} (h : i.fields = legacyFields f e d rm) (hf : f.vex = false)
    (hs : ReadsSource i source) (hw : w / 8 = loadBytes i)
    (hx : ∀ s, exec i s =
      runConversion (s.admitMmx (legacyFeature i s) (performsTransition i)) (source s) (convert s) write i.len s)
    (hc : ∀ s mem', convert { s with mem := mem' } = convert s)
    (hm : ∀ s mem' rs, write { s with mem := mem' } rs = { write s rs with mem := mem' }) :
    Nonempty (Conversion i m64) :=
  ⟨⟨w, b, _, convert, write, fun s _ => by rw [admission_of_legacyFields h hf, hx s], hs, hw, hc, hm⟩⟩

/-- Every form is of this kind. -/
theorem conversion (i : Instr) (m64 : Bool) : Nonempty (Conversion i m64) := by
  cases i with
  | cvtdq2pd _ d _ | cvtdq2ps _ d _ | cvtpd2dq _ d _ | cvtpd2ps _ d _ | cvtps2dq _ d _ | cvtps2pd _ d _ =>
    exact conversion_legacy (write := fun u rs => u.writeXmm d (packLanes 128 rs)) rfl rfl rfl rfl rfl
      (fun _ _ => rfl) (fun _ _ => rfl) fun _ _ _ => rfl
  | vcvtdq2pd128 _ d _ | vcvtdq2pd256 _ d _ | vcvtdq2ps128 _ d _ | vcvtdq2ps256 _ d _
  | vcvtpd2dq128 _ d _ | vcvtpd2dq256 _ d _ | vcvtpd2ps128 _ d _ | vcvtpd2ps256 _ d _
  | vcvtps2dq128 _ d _ | vcvtps2dq256 _ d _ | vcvtps2pd128 _ d _ | vcvtps2pd256 _ d _ =>
    exact conversion_vex (write := fun u rs => u.writeYmm d (packLanes 256 rs)) rfl rfl rfl rfl
      (fun _ _ => rfl) (fun _ _ => rfl) fun _ _ _ => rfl
  | cvtpd2pi _ d _ | cvtps2pi _ d _ =>
    exact conversion_mmx (write := fun u rs => (u.writeMm d (packLanes 64 rs)).mmxTransition) rfl rfl
      (readsSource_legacy rfl rfl _) rfl (fun _ => rfl) (fun _ _ => rfl) fun _ _ _ => rfl
  | cvtpi2ps _ d _ =>
    exact conversion_mmx (write := fun u rs => (u.writeXmmLow d (packLanes 64 rs)).mmxTransition) rfl rfl
      (readsSource_mmx rfl rfl) rfl (fun _ => rfl) (fun _ _ => rfl) fun _ _ _ => rfl
  | cvtpi2pd _ d src =>
    cases src with
    | reg r =>
      exact conversion_mmx (write := fun u rs => (u.writeXmm d (packLanes 128 rs)).mmxTransition) rfl rfl
        (readsSource_mmx rfl rfl) rfl (fun _ => rfl) (fun _ _ => rfl) fun _ _ _ => rfl
    | mem m =>
      exact conversion_mmx (write := fun u rs => u.writeXmm d (packLanes 128 rs)) rfl rfl
        (readsSource_mmx rfl rfl) rfl (fun _ => rfl) (fun _ _ => rfl) fun _ _ _ => rfl
  | cvtsd2si32 _ d _ =>
    exact conversion_legacy (write := fun u rs => u.writeGpr32 d (packLanes 32 rs)) rfl rfl rfl rfl rfl
      (fun _ _ => rfl) (fun _ _ => rfl) fun _ _ _ => rfl
  | vcvtsd2si32 _ d _ =>
    exact conversion_vex (write := fun u rs => u.writeGpr32 d (packLanes 32 rs)) rfl rfl rfl rfl
      (fun _ _ => rfl) (fun _ _ => rfl) fun _ _ _ => rfl
  | cvtsd2si64 _ d _ =>
    cases m64 with
    | true =>
      exact conversion_legacy (write := fun u rs => u.writeGpr64 d (packLanes 64 rs)) rfl rfl rfl rfl rfl
        (fun _ hs => if_pos hs) (fun _ _ => rfl) fun _ _ _ => rfl
    | false =>
      exact conversion_legacy (write := fun u rs => u.writeGpr32 d (packLanes 32 rs)) rfl rfl rfl rfl rfl
        (fun _ hs => if_neg (Bool.not_eq_true _ ▸ hs)) (fun _ _ => rfl) fun _ _ _ => rfl
  | vcvtsd2si64 _ d _ =>
    cases m64 with
    | true =>
      exact conversion_vex (write := fun u rs => u.writeGpr64 d (packLanes 64 rs)) rfl rfl rfl rfl
        (fun _ hs => if_pos hs) (fun _ _ => rfl) fun _ _ _ => rfl
    | false =>
      exact conversion_vex (write := fun u rs => u.writeGpr32 d (packLanes 32 rs)) rfl rfl rfl rfl
        (fun _ hs => if_neg (Bool.not_eq_true _ ▸ hs)) (fun _ _ => rfl) fun _ _ _ => rfl

/-! ### When a load faults (R66, R68, R72, R73) -/

theorem anySegmentFault_loadAnswers {s : State} {a : Word} {n : Nat} :
    anySegmentFault (loadAnswers s a n) = true ↔
      ∃ k < n, Admission.answer s.loadMap (byteAddress s.mode64 a k).toNat = .segmentFault := by
  simp [anySegmentFault, loadAnswers]

/-- There is no page fault exactly where no answer is one. -/
theorem firstPageFault_eq_none_iff {s : State} {l : List (Word × Answer)} :
    firstPageFault s l = none ↔ ∀ x ∈ l, ∀ p r, x.2 ≠ .pageFault p r := by
  induction l with
  | nil => simp [firstPageFault]
  | cons x l ih =>
    obtain ⟨a, _ | ⟨p, r⟩ | _⟩ := x
    · simp [firstPageFault, ih]
    · exact iff_of_false (by simp [firstPageFault]) fun h => h _ List.mem_cons_self p r rfl
    · simp [firstPageFault, ih]

theorem firstPageFault_ne_alignmentCheck (s : State) (l : List (Word × Answer)) :
    firstPageFault s l ≠ some .alignmentCheck := by
  induction l with
  | nil => simp [firstPageFault]
  | cons x l ih => obtain ⟨a, _ | _ | _⟩ := x <;> simp [firstPageFault, ih]

theorem segmentFault_ne_alignmentCheck (g : Seg) : segmentFault g ≠ .alignmentCheck := by
  unfold segmentFault
  split <;> simp

/-- Where every byte is admitted, neither a segment fault nor a page fault is among the answers. -/
theorem no_fault_answer_of_granted {s : State} {a : Word} {n : Nat}
    (h : ∀ k < n, Admission.answer s.loadMap (byteAddress s.mode64 a k).toNat = .granted) :
    anySegmentFault (loadAnswers s a n) = false ∧ firstPageFault s (loadAnswers s a n) = none := by
  constructor
  · rw [Bool.eq_false_iff, Ne, anySegmentFault_loadAnswers]
    rintro ⟨k, hk, hs⟩
    simp [h k hk] at hs
  · rw [firstPageFault_eq_none_iff]
    simp only [loadAnswers, List.mem_map, List.mem_range]
    rintro _ ⟨k, hk, rfl⟩
    simp [h k hk]

section
variable {s : State} {g : Seg} {a : Word} {n : Nat} {al : Bool}

/-- A load that does not fault has every byte admitted (R62). -/
theorem granted_of_loadFault_eq_none (h : loadFault s g a n al = none) {k : Nat} (hk : k < n) :
    Admission.answer s.loadMap (byteAddress s.mode64 a k).toNat = .granted := by
  unfold loadFault at h
  split at h
  · cases h
  split at h
  · cases h
  rename_i hseg
  split at h
  · cases h
  split at h
  · cases h
  rename_i hpage
  have hpage' := firstPageFault_eq_none_iff.1 hpage _ (List.mem_map.2 ⟨k, List.mem_range.2 hk, rfl⟩)
  cases hx : Admission.answer s.loadMap (byteAddress s.mode64 a k).toNat with
  | granted => rfl
  | pageFault p r => exact absurd hx (hpage' p r)
  | segmentFault => exact absurd (anySegmentFault_loadAnswers.2 ⟨k, hk, hx⟩) hseg

/-- A misaligned load of a form that requires alignment is `#GP(0)`, before any page is looked at (R66, R263). -/
theorem loadFault_of_misaligned (hc : s.mode64 = true → canonical s.params.linearAddressBits a = true)
    (hb : ∀ k < n, Admission.answer s.loadMap (byteAddress s.mode64 a k).toNat ≠ .segmentFault) (hn : a.toNat % 16 ≠ 0) :
    loadFault s g a n true = some .generalProtection := by
  have hcan : ¬ (s.mode64 && !canonical s.params.linearAddressBits a) = true := by simpa using hc
  have hseg : ¬ anySegmentFault (loadAnswers s a n) = true := by
    rw [anySegmentFault_loadAnswers]
    rintro ⟨k, hk, hs⟩
    exact hb k hk hs
  rw [loadFault, if_neg hcan, if_neg hseg, if_pos (by simp [hn])]

/-- A load without an alignment requirement, inside its segment and admitted, can end in the alignment check alone (R68). -/
theorem loadFault_of_granted (hc : s.mode64 = true → canonical s.params.linearAddressBits a = true)
    (hb : ∀ k < n, Admission.answer s.loadMap (byteAddress s.mode64 a k).toNat = .granted) :
    loadFault s g a n false = if alignmentChecked s a n then some .alignmentCheck else none := by
  have hcan : ¬ (s.mode64 && !canonical s.params.linearAddressBits a) = true := by simpa using hc
  obtain ⟨hseg, hpage⟩ := no_fault_answer_of_granted hb
  rw [loadFault, if_neg hcan, hseg, hpage]
  rfl

/-- `#AC(0)` comes from the alignment check alone, and not for a form that requires alignment (R68). -/
theorem alignmentChecked_of_loadFault (h : loadFault s g a n al = some .alignmentCheck) :
    al = false ∧ alignmentChecked s a n = true := by
  unfold loadFault at h
  split at h
  · exact absurd (Option.some.inj h) (segmentFault_ne_alignmentCheck g)
  split at h
  · exact absurd (Option.some.inj h) (segmentFault_ne_alignmentCheck g)
  split at h
  · cases h
  split at h
  · rename_i f hpage
    exact absurd (hpage.trans h) (firstPageFault_ne_alignmentCheck s _)
  split at h
  · simp_all
  · cases h

end

/-! ### What an admitted form does -/

/-- The fault of the memory operand `m` of the instruction, if it has one (step 6 of R263). -/
def operandFault (i : Instr) (m : Mem) (s : State) : Option Fault :=
  loadFault s (operandSegment i m s) (operandAddress i m s) (loadBytes i) (needsAlignment i)

theorem readOperand_eq_ok_iff {w : Nat} {i : Instr} {m : Mem} {s : State} {v : BitVec w} (hw : w / 8 = loadBytes i) :
    readOperand w i m s = .ok v ↔
      operandFault i m s = none ∧ v = ofBytes w (readBytes s.mem s.mode64 (operandAddress i m s) (loadBytes i)) := by
  rw [operandFault, ← hw]
  exact memRead_eq_ok_iff

theorem readOperand_eq_error_iff {w : Nat} {i : Instr} {m : Mem} {s : State} {x : Stop} (hw : w / 8 = loadBytes i) :
    readOperand w i m s = .error x ↔ ∃ f, operandFault i m s = some f ∧ x = .fault f := by
  rw [operandFault, ← hw]
  exact memRead_eq_error_iff

/-- An admitted form whose memory operand faults ends in that fault (step 6 of R263). -/
theorem exec_of_operandFault {i : Instr} {m : Mem} {s : State} {f : Fault} (hm : memoryOperand i = some m) (ha : Admitted i s)
    (h : operandFault i m s = some f) :
    exec i s = .fault f := by
  obtain ⟨F⟩ := conversion i s.mode64
  rw [F.exec_eq s rfl, admission_eq_none_iff.2 ha]
  cases F.reads with
  | register operand => simp [operand] at hm
  | memory operand eq =>
    cases operand.symm.trans hm
    rw [eq, (readOperand_eq_error_iff F.bytes).2 ⟨f, h, rfl⟩]
    rfl

theorem Completes.next_or_simd {s : State} {o : Out} {f : FpFlags} {post : State → Prop} (h : Completes s o f post) :
    (∃ t, o = .next t ∧ post t) ∨ o = .fault .simdFloatingPoint ∨ o = .fault .invalidOpcodeSimd := by
  by_cases hm : Masked s f
  · exact .inl (h.1 hm)
  · rw [h.2 hm]
    cases s.osxmmexcpt <;> simp

/-- An admitted form whose memory operand is read completes or ends in a SIMD exception (step 7 of R263). -/
theorem exec_of_operandFault_eq_none {i : Instr} {m : Mem} {s : State} (hm : memoryOperand i = some m) (ha : Admitted i s)
    (h : operandFault i m s = none) :
    (∃ t, exec i s = .next t) ∨ exec i s = .fault .simdFloatingPoint ∨ exec i s = .fault .invalidOpcodeSimd := by
  obtain ⟨F⟩ := conversion i s.mode64
  cases F.reads with
  | register operand => simp [operand] at hm
  | memory operand eq =>
    cases operand.symm.trans hm
    have hv := (readOperand_eq_ok_iff F.bytes).2 ⟨h, rfl⟩
    have hc := runConversion_completes (convert := F.convert s) (write := F.write) (len := i.len) (s := s)
      (post := fun _ => True) (admission_eq_none_iff.2 ha) ((eq s).trans hv) rfl trivial
    rw [← F.exec_eq s rfl] at hc
    exact hc.next_or_simd.imp_left fun ⟨t, ht, _⟩ => ⟨t, ht⟩

/-- What `runConversion` faults with: its check's fault, its source's, or a SIMD exception (R263). -/
theorem runConversion_eq_fault {b w : Nat} {check : Option Stop} {source : Except Stop (BitVec w)}
    {convert : BitVec w → List (Conv b)} {write : State → List (Conv b) → State} {len : Nat} {s : State} {f : Fault}
    (h : runConversion check source convert write len s = .fault f) :
    check = some (.fault f) ∨ source = .error (.fault f) ∨ f = .simdFloatingPoint ∨ f = .invalidOpcodeSimd := by
  have out_eq {x : Stop} (hx : x.out = .fault f) : x = .fault f := by
    cases x with
    | fault g => cases hx; rfl
    | refuse r => cases hx
  cases check with
  | some x => exact .inl (congrArg some (out_eq h))
  | none =>
    cases source with
    | error x => exact .inr (.inl (congrArg Except.error (out_eq h)))
    | ok v =>
      by_cases hm : Masked s (unionFlags (convert v))
      · rw [runConversion_eq_next_iff.2 ⟨rfl, v, rfl, (s.simdStop_eq_none_iff _).2 hm, rfl⟩] at h
        cases h
      · rw [runConversion_of_simdStop (State.simdStop_of_not_masked hm)] at h
        cases out_eq h
        cases s.osxmmexcpt <;> simp

/-- A fault of a form that neither the admission checks nor the conversion raises is the fault of its memory operand. -/
theorem operandFault_of_exec {i : Instr} {s : State} {f : Fault} (h : exec i s = .fault f)
    (ha : admission i s ≠ some (.fault f)) (hx : f ≠ .simdFloatingPoint) (hu : f ≠ .invalidOpcodeSimd) :
    ∃ m, memoryOperand i = some m ∧ operandFault i m s = some f := by
  obtain ⟨F⟩ := conversion i s.mode64
  rw [F.exec_eq s rfl] at h
  obtain h | h | h | h := runConversion_eq_fault h
  · exact absurd h ha
  · cases F.reads with
    | register _ _ eq => simp [eq] at h
    | @memory m operand eq =>
      rw [eq] at h
      obtain ⟨g, hg, he⟩ := (readOperand_eq_error_iff F.bytes).1 h
      cases he
      exact ⟨m, operand, hg⟩
  · exact absurd h hx
  · exact absurd h hu

/-! ### Another memory (R65) -/

/-- The outcome with the memory of its next state replaced. -/
def outcomeWithMem (mem' : Memory) : Out → Out
  | .next t => .next { t with mem := mem' }
  | .fault f => .fault f
  | .refused r => .refused r

theorem outcomeWithMem_out (mem' : Memory) (x : Stop) : outcomeWithMem mem' x.out = x.out := by
  cases x <;> rfl

/-- What is read depends on the bytes of the access alone (R62). -/
theorem memRead_congr {w : Nat} {s : State} {g : Seg} {a : Word} {al : Bool} {mem' : Memory}
    (h : ∀ k < w / 8, mem'.read (byteAddress s.mode64 a k).toNat = s.mem.read (byteAddress s.mode64 a k).toNat) :
    memRead w { s with mem := mem' } g a al = memRead w s g a al := by
  have hf : loadFault { s with mem := mem' } g a (w / 8) al = loadFault s g a (w / 8) al := by
    have hp : ∀ l, firstPageFault { s with mem := mem' } l = firstPageFault s l := firstPageFault_congr rfl
    unfold loadFault
    rw [hp]
    rfl
  have hr : readBytes mem' s.mode64 a (w / 8) = readBytes s.mem s.mode64 a (w / 8) :=
    List.map_congr_left fun k hk => h k (List.mem_range.1 hk)
  cases hl : loadFault s g a (w / 8) al with
  | some f => rw [memRead_eq_error_iff.2 ⟨f, hl, rfl⟩, memRead_eq_error_iff.2 ⟨f, hf.trans hl, rfl⟩]
  | none => rw [memRead_eq_ok_iff.2 ⟨hl, rfl⟩, memRead_eq_ok_iff.2 ⟨hf.trans hl, congrArg (ofBytes w) hr.symm⟩]

/-- Only the bytes of the memory operand matter to what a form's source reads (R65). -/
theorem ReadsSource.congr {i : Instr} {w : Nat} {source : State → Except Stop (BitVec w)} (h : ReadsSource i source)
    {s : State} {mem' : Memory}
    (hb : ∀ m, memoryOperand i = some m → ∀ k < w / 8,
      mem'.read (operandByte i m s k).toNat = s.mem.read (operandByte i m s k).toNat) :
    source { s with mem := mem' } = source s := by
  cases h with
  | register _ _ eq frame => rw [eq, eq, frame]
  | @memory m operand eq =>
    have ha : operandAddress i m { s with mem := mem' } = operandAddress i m s := linear_congr rfl rfl rfl rfl rfl
    rw [eq, eq, readOperand, ha]
    exact memRead_congr (hb m operand)

/-- A conversion whose parts do not look at memory carries another memory through. -/
theorem runConversion_withMem {b w : Nat} {check : Option Stop} {source : Except Stop (BitVec w)}
    {convert : BitVec w → List (Conv b)} {write : State → List (Conv b) → State} {len : Nat} {s : State} {mem' : Memory}
    (hw : ∀ t rs, write { t with mem := mem' } rs = { write t rs with mem := mem' }) :
    runConversion check source convert write len { s with mem := mem' } =
      outcomeWithMem mem' (runConversion check source convert write len s) := by
  cases check with
  | some x => exact (outcomeWithMem_out mem' x).symm
  | none =>
    cases source with
    | error x => exact (outcomeWithMem_out mem' x).symm
    | ok v =>
      by_cases hm : Masked s (unionFlags (convert v))
      · have h := (s.simdStop_eq_none_iff _).2 hm
        rw [runConversion_eq_next_iff.2 ⟨rfl, v, rfl, h, rfl⟩]
        exact runConversion_eq_next_iff.2 ⟨rfl, v, rfl, h, congrArg (·.retire len) (hw (s.raiseFlags _) _).symm⟩
      · have h := State.simdStop_of_not_masked hm
        rw [runConversion_of_simdStop h]
        exact (runConversion_of_simdStop (s := { s with mem := mem' }) h write len).trans (outcomeWithMem_out mem' _).symm

/-- A form executes alike over a memory that agrees on the bytes of its operand (R65). -/
theorem exec_withMem {i : Instr} {s : State} {mem' : Memory}
    (hb : ∀ m, memoryOperand i = some m → ∀ k < loadBytes i,
      mem'.read (operandByte i m s k).toNat = s.mem.read (operandByte i m s k).toNat) :
    exec i { s with mem := mem' } = outcomeWithMem mem' (exec i s) := by
  obtain ⟨F⟩ := conversion i s.mode64
  have hadm : admission i { s with mem := mem' } = admission i s := rfl
  rw [F.exec_eq s rfl, F.exec_eq { s with mem := mem' } rfl, hadm, F.convert_mem, F.reads.congr (F.bytes ▸ hb)]
  exact runConversion_withMem fun t rs => F.write_mem t mem' rs

/-- The memory operand of a form that completes does not fault. -/
theorem operandFault_eq_none_of_exec {i : Instr} {m : Mem} {s t : State} (h : exec i s = .next t)
    (hm : memoryOperand i = some m) :
    operandFault i m s = none := by
  obtain ⟨F⟩ := conversion i s.mode64
  rw [F.exec_eq s rfl] at h
  obtain ⟨-, v, hv, -⟩ := runConversion_eq_next_iff.1 h
  cases F.reads with
  | register operand => simp [operand] at hm
  | memory operand eq =>
    cases operand.symm.trans hm
    rw [eq] at hv
    exact ((readOperand_eq_ok_iff F.bytes).1 hv).1

/-! ### The statements -/

/-- Settles O37: nothing of an execution but its source looks at memory, and the source reads the operand's bytes. -/
theorem loadReadsExactlyTheOperandBytes : Obligations.LoadReadsExactlyTheOperandBytes := by
  intro i s mem' hb
  have hx := exec_withMem hb
  refine ⟨fun t ht => ⟨hx.trans (congrArg _ ht), fun m hm k hk => ?_⟩, fun f hf => hx.trans (congrArg _ hf),
    fun r hr => hx.trans (congrArg _ hr)⟩
  exact granted_of_loadFault_eq_none (operandFault_eq_none_of_exec ht hm) hk

/-- Settles O27: the alignment check of a legacy m128 operand comes before its pages. -/
theorem misalignedLegacyM128RaisesGeneralProtection : Obligations.MisalignedLegacyM128RaisesGeneralProtection := by
  intro i m s hal hm ha hin hmis
  have hn : (operandAddress i m s).toNat % 16 ≠ 0 := fun h => hmis (BitVec.eq_of_toNat_eq (by simpa using h))
  exact exec_of_operandFault hm ha (by rw [operandFault, hal]; exact loadFault_of_misaligned hin.canonical hin.bytes hn)

/-- Settles O30: `#AC(0)` is the last fault of a load, and no other part of an execution raises it. -/
theorem alignmentCheckFiresOnlyWhereItMay : Obligations.AlignmentCheckFiresOnlyWhereItMay := by
  constructor
  · intro i m s hm ha hin hb ham hac hcpl hal hmis
    have hl : operandFault i m s =
        if alignmentChecked s (operandAddress i m s) (loadBytes i) then some .alignmentCheck else none := by
      rw [operandFault, hal]
      exact loadFault_of_granted hin.canonical hb
    split at hl
    · have hx := exec_of_operandFault hm ha hl
      exact ⟨fun _ => hx, fun _ => .inl hx⟩
    · rename_i hno
      refine ⟨fun h8 => absurd ?_ hno, fun _ => .inr (exec_of_operandFault_eq_none hm ha hl)⟩
      simp [alignmentChecked, ham, hac, hcpl, h8 ▸ hmis, h8]
  · intro i s hcond hx
    have hadm : admission i s ≠ some (.fault .alignmentCheck) := fun h => by simpa using admission_fault h
    obtain ⟨m, hm, hl⟩ := operandFault_of_exec hx hadm (by simp) (by simp)
    obtain ⟨hal, hc⟩ := alignmentChecked_of_loadFault hl
    simp only [alignmentChecked, Bool.and_eq_true, decide_eq_true_eq] at hc
    obtain ⟨⟨⟨⟨ham, hac⟩, hcpl⟩, hmis⟩, -⟩ := hc
    rcases hcond with h | h | h | h | h
    · simp [ham] at h
    · simp [hac] at h
    · exact h hcpl
    · simp [hal] at h
    · exact hmis (h m hm)

end Sys2Proof.Machine
end

section
/-! The encoder's bytes read back, part by part from the end (steps 6 to 2 of R112): ModRM with what follows it, the row and
the operands, then the legacy shape with REX and the VEX shape. -/

namespace Sys2Proof

/-! ### The fields of ModRM and SIB bytes (R104, R108) -/

section
variable (a : BitVec 2) (b c : BitVec 3)

@[simp] theorem extractLsb'_fields_high : (a ++ b ++ c).extractLsb' 6 2 = a := by
  ext i hi
  grind

@[simp] theorem extractLsb'_fields_middle : (a ++ b ++ c).extractLsb' 3 3 = b := by
  ext i hi
  grind

@[simp] theorem extractLsb'_fields_low : (a ++ b ++ c).extractLsb' 0 3 = c :=
  BitVec.extractLsb'_append_eq_right

end

/-- A register number is its extension bit and its field (R97, R105). -/
@[simp] theorem reg4_extBit_lowField (r : Fin 16) : reg4 (extBit r) (lowField r) = r := by
  revert r
  decide

theorem extBit_of_regOk {r : Fin 16} (h : regOk false r = true) : extBit r = false := by
  simp only [regOk, Bool.false_or, decide_eq_true_eq] at h
  simp [extBit, h]

theorem lowField_eq_four_iff (r : Fin 16) : lowField r = 4#3 ↔ r.val % 8 = 4 := by
  revert r
  decide

theorem lowField_eq_five_iff (r : Fin 16) : lowField r = 5#3 ↔ r.val % 8 = 5 := by
  revert r
  decide

/-! ### Displacements (R107, R109) -/

@[simp] theorem takeDisp32_disp32Bytes (d : BitVec 32) (rest : List Byte) :
    takeDisp32 (disp32Bytes d ++ rest) = some (d, rest) := by
  have h : d.extractLsb' 24 8 ++ d.extractLsb' 16 8 ++ d.extractLsb' 8 8 ++ d.extractLsb' 0 8 = d := by
    ext i hi
    grind
  simp [disp32Bytes, takeDisp32, h]

@[simp] theorem takeDisp_bytes (d : Disp) (rest : List Byte) : takeDisp d.mod (d.bytes ++ rest) = some (d, rest) := by
  cases d with
  | none => rfl
  | disp8 v => rfl
  | disp32 v => simp [takeDisp, Disp.mod, Disp.bytes]

theorem Disp.mod_ne_three (d : Disp) : d.mod ≠ 3#2 := by
  cases d <;> simp [Disp.mod]

theorem Disp.mod_eq_zero_iff (d : Disp) : d.mod = 0#2 ↔ d = .none := by
  cases d <;> simp [Disp.mod]

/-- A base with field `101b` has a displacement, so it is not read as "no base" (R107, R108). -/
theorem Disp.not_baseless {d : Disp} {r : Fin 16} (h : d.okWithBase r = true) : ¬ (d.mod = 0#2 ∧ lowField r = 5#3) := by
  rw [Disp.mod_eq_zero_iff, lowField_eq_five_iff]
  simpa [Disp.okWithBase, imp_iff_not_or] using h

/-! ### The SIB byte (R108) -/

@[simp] theorem Scale.ofBits_bits (s : Scale) : Scale.ofBits s.bits = s := by
  cases s <;> rfl

@[simp] theorem extractLsb'_sibByte_base (i : Option (GenReg × Scale)) (base : BitVec 3) :
    (sibByte i base).extractLsb' 0 3 = base := by
  cases i <;> simp only [sibByte, extractLsb'_fields_low]

theorem sibIndex_sibByte {i : Option (GenReg × Scale)} {ext : Bool} (h : indexOk ext i = true) (base : BitVec 3) :
    sibIndex (indexExt i) ((sibByte i base).extractLsb' 3 3) ((sibByte i base).extractLsb' 6 2) = i := by
  cases i with
  | none => simp only [sibByte, extractLsb'_fields_middle, extractLsb'_fields_high]; rfl
  | some i =>
    obtain ⟨r, s⟩ := i
    have hr : r ≠ 4 := by
      rintro rfl
      simp [indexOk] at h
    simp [sibByte, indexExt, sibIndex, hr]

/-- The SIB byte and the displacement of an address with a base. -/
theorem parseSib_base {r : Fin 16} {i : Option (GenReg × Scale)} {d : Disp} {ext : Bool} (hd : d.okWithBase r = true)
    (hi : indexOk ext i = true) (rest : List Byte) :
    parseSib (indexExt i) (extBit r) d.mod (sibByte i (lowField r) :: (d.bytes ++ rest)) = some (.sib r i d, rest) := by
  simp [parseSib, Disp.not_baseless hd, sibIndex_sibByte hi]

/-- The SIB byte and the displacement of an address without a base. -/
theorem parseSib_noBase {i : Option (GenReg × Scale)} {ext b : Bool} (hi : indexOk ext i = true) (d : BitVec 32)
    (rest : List Byte) :
    parseSib (indexExt i) b 0#2 (sibByte i 5#3 :: (disp32Bytes d ++ rest)) = some (.sibNoBase i d, rest) := by
  simp [parseSib, sibIndex_sibByte hi]

/-! ### Operand 2 (R106, R107) -/

/-- Operand 2 as it is read before its register file is known. -/
def RM.raw : RM 16 → RawRM
  | .reg r => .reg (lowField r)
  | .mem m => .mem m

/-- ModRM and what follows it are read back (R104, R107, R108). -/
theorem parseRM_bytes {m64 ext : Bool} {rm : RM 16} (h : rmVecWf m64 ext rm = true) (reg : BitVec 3) (rest : List Byte) :
    ∃ modrm t, rm.bytes reg ++ rest = modrm :: t ∧ modrm.extractLsb' 3 3 = reg ∧
      parseRM m64 rm.xBit rm.bBit (modrm.extractLsb' 6 2) (modrm.extractLsb' 0 3) t = some (rm.raw, rest) := by
  cases rm with
  | reg r => exact ⟨_, _, rfl, extractLsb'_fields_middle .., by simp [parseRM, RM.raw]⟩
  | mem m =>
    cases m with
    | based b d =>
      simp only [rmVecWf, Mem.wf, Bool.and_eq_true, decide_eq_true_eq] at h
      obtain ⟨⟨hb, hd⟩, -⟩ := h
      have hb : lowField b ≠ 4#3 := mt (lowField_eq_four_iff b).1 hb
      exact ⟨_, _, rfl, extractLsb'_fields_middle .., by
        simp [parseRM, RM.bBit, RM.raw, d.mod_ne_three, hb, Disp.not_baseless hd]⟩
    | sib b i d =>
      simp only [rmVecWf, Mem.wf, Bool.and_eq_true] at h
      obtain ⟨⟨hd, -⟩, hi⟩ := h
      exact ⟨_, _, rfl, extractLsb'_fields_middle .., by
        simp [parseRM, RM.xBit, RM.bBit, RM.raw, d.mod_ne_three, parseSib_base hd hi]⟩
    | sibNoBase i d =>
      exact ⟨_, _, rfl, extractLsb'_fields_middle .., by
        simp only [extractLsb'_fields_high, extractLsb'_fields_low]
        simp [parseRM, RM.xBit, RM.raw, parseSib_noBase h]⟩
    | ripRel d =>
      obtain rfl : m64 = true := h
      exact ⟨_, _, rfl, extractLsb'_fields_middle .., by
        simp only [extractLsb'_fields_high, extractLsb'_fields_low]
        simp [parseRM, RM.raw]⟩
    | abs d =>
      obtain rfl : m64 = false := by simpa [rmVecWf, Mem.wf] using h
      exact ⟨_, _, rfl, extractLsb'_fields_middle .., by
        simp only [extractLsb'_fields_high, extractLsb'_fields_low]
        simp [parseRM, RM.raw]⟩

/-! ### The row and its decode key (R111, R118) -/

/-- The bits of a row are its own decode key. -/
theorem decodeKey_form (f : Form) : decodeKey f.vex f.w f.l f.pp 1 f.opcode = f.bits := by
  cases f <;> rfl

/-- The decode key of a row selects it. -/
@[simp] theorem selectForm_bits (f : Form) : selectForm f.bits = some f := by
  cases f <;> rfl

/-- No legacy row has the key bit `L`. -/
theorem Form.l_of_vex_eq_false {f : Form} (h : f.vex = false) : f.l = false := by
  revert h
  cases f <;> decide

/-! ### An instruction from its fields -/

/-- What the decoder is to know of an instruction before the ModRM byte. -/
def Fields.head (f : Fields) : Head :=
  { seg := f.seg, addr32 := f.addr32, ext := f.ext, r := extBit f.reg, x := f.rm.xBit, b := f.rm.bBit }

/-- The instruction with these fields. -/
def Fields.instr (f : Fields) : Instr := f.form.build f.head (lowField f.reg) f.rm.raw

theorem RM.vec_raw (rm : RM 16) : rm.raw.vec rm.bBit = rm := by
  cases rm <;> simp [RM.raw, RawRM.vec, RM.bBit]

theorem toFin_lowField_mmxReg4 (r : Fin 8) : (lowField (mmxReg4 r)).toFin = r := by
  revert r
  decide

theorem RM.mmx_raw (rm : RM 8) : (rmOfMmx rm).raw.mmx = rm := by
  cases rm <;> simp [rmOfMmx, RM.raw, RawRM.mmx, toFin_lowField_mmxReg4]

/-- The fields of an instruction determine it (R104 to R106). -/
theorem Instr.instr_fields (i : Instr) : i.fields.instr = i := by
  cases i <;>
    simp [Instr.fields, Fields.instr, Fields.head, Form.build, legacyFields, vexFields, Head.legacy, Head.vex, RM.vec_raw,
      RM.mmx_raw, toFin_lowField_mmxReg4]

/-! ### Well-formed instructions in terms of their fields -/

/-- The fields that an encoding exists for (R93 to R109). -/
structure Fields.Encodable (m64 : Bool) (f : Fields) : Prop where
  addr32 : f.addr32 = true → m64 = true
  rex : f.form.vex = false → f.ext = true → m64 = true
  wide : f.form.w = true → m64 = true ∧ f.ext = true
  reg : regOk (m64 && (f.form.vex || f.ext)) f.reg = true
  rm : rmVecWf m64 (m64 && f.ext) f.rm = true

theorem encodable_legacy {m64 : Bool} {f : Form} {e : LegacyEnc} {d : Fin 16} {src : RM 16} (hf : f.vex = false)
    (hw : f.w = true → e.rex = true) (h : legacyWf m64 e d src = true) : (legacyFields f e d src).Encodable m64 := by
  simp only [legacyWf, LegacyEnc.wf, Bool.and_eq_true] at h
  obtain ⟨⟨he, hd⟩, hs⟩ := h
  have haddr : e.addr32 = true → m64 = true := fun ha => by simpa [ha] using he
  have hrex : e.rex = true → m64 = true := fun hr => by simpa [hr] using he
  have hext : (m64 && e.rex) = e.rex := Bool.and_eq_right_iff_imp.2 hrex
  exact ⟨haddr, fun _ => hrex, fun w => ⟨hrex (hw w), hw w⟩, by simpa [legacyFields, hf, hext] using hd,
    by simpa [legacyFields, hext] using hs⟩

theorem encodable_vex {m64 : Bool} {f : Form} {e : VexEnc} {d : Fin 16} {src : RM 16} (hf : f.vex = true)
    (hw : f.w = true → m64 = true ∧ e.three = true) (h : vexWf m64 e d src = true) :
    (vexFields f e d src).Encodable m64 := by
  simp only [vexWf, VexEnc.wf, Bool.and_eq_true] at h
  obtain ⟨⟨he, hd⟩, hs⟩ := h
  exact ⟨fun ha => by simpa [show e.addr32 = true from ha] using he, fun h => absurd (hf.symm.trans h) (by decide), hw,
    by simpa [vexFields, hf] using hd, hs⟩

theorem regOk_mmxReg4 (ext : Bool) (r : Fin 8) : regOk ext (mmxReg4 r) = true := by
  simp [regOk, mmxReg4]

/-- A form with an MMX destination is well formed as one with that register's number. -/
theorem legacyWf_of_mmxDst {m64 : Bool} {e : LegacyEnc} {src : RM 16} (d : Fin 8) (h : legacyMmxDstWf m64 e src = true) :
    legacyWf m64 e (mmxReg4 d) src = true := by
  simpa [legacyWf, legacyMmxDstWf, regOk_mmxReg4] using h

/-- A form with an MMX source is well formed as one with that register's number. -/
theorem legacyWf_of_mmxSrc {m64 : Bool} {e : LegacyEnc} {d : Fin 16} {src : RM 8} (h : legacyMmxSrcWf m64 e d src = true) :
    legacyWf m64 e d (rmOfMmx src) = true := by
  cases src with
  | reg r => simpa [legacyWf, legacyMmxSrcWf, rmOfMmx, rmMmxWf, rmVecWf, regOk_mmxReg4] using h
  | mem m => exact h

theorem Instr.encodable_of_wf {m64 : Bool} {i : Instr} (h : i.wf m64 = true) : i.fields.Encodable m64 := by
  cases i with
  | cvtdq2pd | cvtdq2ps | cvtpd2dq | cvtpd2ps | cvtps2dq | cvtps2pd | cvtsd2si32 =>
    exact encodable_legacy rfl (absurd · (by decide)) h
  | cvtpd2pi _ d _ | cvtps2pi _ d _ => exact encodable_legacy rfl (absurd · (by decide)) (legacyWf_of_mmxDst d h)
  | cvtpi2pd | cvtpi2ps => exact encodable_legacy rfl (absurd · (by decide)) (legacyWf_of_mmxSrc h)
  | cvtsd2si64 e d src =>
    simp only [Instr.wf, Bool.and_eq_true] at h
    obtain ⟨⟨-, hrex⟩, hwf⟩ := h
    exact encodable_legacy rfl (fun _ => hrex) hwf
  | vcvtsd2si64 e d src =>
    simp only [Instr.wf, Bool.and_eq_true] at h
    obtain ⟨hwide, hwf⟩ := h
    exact encodable_vex rfl (fun _ => hwide) hwf
  | _ => exact encodable_vex rfl (absurd · (by decide)) h

/-! ### The extension bits (R97, R99, R100) -/

theorem extBit_eq_of_regOk {ext : Bool} {r : Fin 16} (h : regOk ext r = true) : (ext && extBit r) = extBit r := by
  cases ext with
  | true => rfl
  | false => simp [extBit_of_regOk h]

theorem indexExt_of_indexOk {i : Option (GenReg × Scale)} (h : indexOk false i = true) : indexExt i = false := by
  cases i with
  | none => rfl
  | some i =>
    simp only [indexOk, Bool.and_eq_true] at h
    exact extBit_of_regOk h.2

/-- Without extension bits operand 2 needs none. -/
theorem extBits_of_rmVecWf {m64 : Bool} {rm : RM 16} (h : rmVecWf m64 false rm = true) :
    rm.xBit = false ∧ rm.bBit = false := by
  cases rm with
  | reg r => exact ⟨rfl, extBit_of_regOk h⟩
  | mem m =>
    cases m with
    | based b d =>
      simp only [rmVecWf, Mem.wf, Bool.and_eq_true] at h
      exact ⟨rfl, extBit_of_regOk h.2⟩
    | sib b i d =>
      simp only [rmVecWf, Mem.wf, Bool.and_eq_true] at h
      obtain ⟨⟨-, hb⟩, hi⟩ := h
      exact ⟨indexExt_of_indexOk hi, extBit_of_regOk hb⟩
    | sibNoBase i d => exact ⟨indexExt_of_indexOk h, rfl⟩
    | _ => exact ⟨rfl, rfl⟩

theorem extBits_eq_of_rmVecWf {m64 ext : Bool} {rm : RM 16} (h : rmVecWf m64 ext rm = true) :
    (ext && rm.xBit) = rm.xBit ∧ (ext && rm.bBit) = rm.bBit := by
  cases ext with
  | true => exact ⟨rfl, rfl⟩
  | false => simp [extBits_of_rmVecWf h]

/-! ### Opcode and operands -/

/-- Steps 5 and 6 of R112 on the encoder's bytes: an encoding `#UD` or the row's instruction. -/
theorem decodeOperands_bytes {m64 : Bool} {f : Fields} (h : f.Encodable m64) (invalid : Bool) (rest : List Byte) :
    decodeOperands m64 f.form f.head invalid (f.rm.bytes (lowField f.reg) ++ rest) =
      if invalid then .invalidOpcode else .ok f.instr rest := by
  obtain ⟨modrm, t, hb, hreg, hrm⟩ := parseRM_bytes h.rm (lowField f.reg) rest
  rw [hb]
  simp only [decodeOperands, Fields.head] at hrm ⊢
  rw [hrm, hreg]
  rfl

/-! ### The legacy shape (R97, R112) -/

/-- The REX byte with these bits (R97). -/
def rexByte (w r x b : Bool) : Byte :=
  4#4 ++ BitVec.ofBool w ++ BitVec.ofBool r ++ BitVec.ofBool x ++ BitVec.ofBool b

theorem rexByte_bits (w r x b : Bool) :
    (rexByte w r x b).getLsbD 3 = w ∧ (rexByte w r x b).getLsbD 2 = r ∧ (rexByte w r x b).getLsbD 1 = x ∧
      (rexByte w r x b).getLsbD 0 = b ∧ (rexByte w r x b).extractLsb' 4 4 = 4#4 := by
  revert w r x b
  decide

/-- What follows the legacy prefixes of a legacy form (R90). -/
def Fields.legacyTail (f : Fields) : List Byte :=
  (if f.ext then [rexByte f.form.w (extBit f.reg) f.rm.xBit f.rm.bBit] else []) ++
    0x0F#8 :: f.form.opcode :: f.rm.bytes (lowField f.reg)

theorem Fields.legacyBytes_eq (f : Fields) :
    f.legacyBytes = prefixBytes f.seg f.addr32 ++ (ppBytes f.form.pp ++ f.legacyTail) := by
  simp [Fields.legacyBytes, Fields.legacyTail, rexByte]

/-- The opcode and the operands of a legacy form, after what the decoder has read of prefixes and REX. -/
theorem decodeLegacyOpcode_bytes {m64 : Bool} {f : Fields} (h : f.Encodable m64) (hv : f.form.vex = false) {p : Prefixes}
    (hpp : p.mandatory.getD 0 = f.form.pp) (hseg : p.seg = f.seg) (haddr : p.addr32 = f.addr32) {rex : Option Byte}
    (hrex : rex = if f.ext then some (rexByte f.form.w (extBit f.reg) f.rm.xBit f.rm.bBit) else none)
    (rest : List Byte) :
    decodeLegacyOpcode m64 p rex (f.form.opcode :: (f.rm.bytes (lowField f.reg) ++ rest)) =
      if p.lock then .invalidOpcode else .ok f.instr rest := by
  obtain ⟨hw, hr, hx, hb, he⟩ : (rex.getD 0#8).getLsbD 3 = f.form.w ∧ (rex.getD 0#8).getLsbD 2 = extBit f.reg ∧
      (rex.getD 0#8).getLsbD 1 = f.rm.xBit ∧ (rex.getD 0#8).getLsbD 0 = f.rm.bBit ∧ rex.isSome = f.ext := by
    subst hrex
    cases hext : f.ext with
    | true =>
      obtain ⟨hw, hr, hx, hb, -⟩ := rexByte_bits f.form.w (extBit f.reg) f.rm.xBit f.rm.bBit
      exact ⟨hw, hr, hx, hb, rfl⟩
    | false =>
      have hw : f.form.w = false := Bool.eq_false_iff.2 fun hw => by simpa [hext] using h.wide hw
      have hreg := h.reg
      have hrm := h.rm
      simp only [hv, hext, Bool.or_false, Bool.and_false] at hreg hrm
      simp [hw, extBit_of_regOk hreg, extBits_of_rmVecWf hrm]
  have hkey : selectForm (decodeKey false f.form.w false f.form.pp 1 f.form.opcode) = some f.form := by
    rw [← selectForm_bits, ← decodeKey_form, hv, Form.l_of_vex_eq_false hv]
  simp only [decodeLegacyOpcode, hpp, hw, hr, hx, hb, he, hseg, haddr, hkey]
  exact decodeOperands_bytes h p.lock rest

/-- Steps 2 to 6 of R112 on a legacy form. -/
theorem decodeRex_legacyTail {m64 : Bool} {f : Fields} (h : f.Encodable m64) (hv : f.form.vex = false) {p : Prefixes}
    (hpp : p.mandatory.getD 0 = f.form.pp) (hseg : p.seg = f.seg) (haddr : p.addr32 = f.addr32) (rest : List Byte) :
    decodeRex m64 p (f.legacyTail ++ rest) = if p.lock then .invalidOpcode else .ok f.instr rest := by
  have hop := fun rex hrex => decodeLegacyOpcode_bytes h hv hpp hseg haddr (rex := rex) hrex rest
  unfold Fields.legacyTail
  split at hop
  · rename_i hext
    obtain ⟨-, -, -, -, hrex⟩ := rexByte_bits f.form.w (extBit f.reg) f.rm.xBit f.rm.bBit
    rw [← hop _ rfl]
    simp [decodeRex, decodeEscape, hext, h.rex hv hext, hrex]
  · rename_i hext
    rw [← hop _ rfl]
    simp [decodeRex, decodeEscape, hext]

/-! ### The VEX shape (R99 to R103, R119) -/

/-- The last byte of a VEX prefix (R99, R100). -/
def vexByte (w : Bool) (vvvv : BitVec 4) (l : Bool) (pp : BitVec 2) : Byte :=
  BitVec.ofBool w ++ vvvv ++ BitVec.ofBool l ++ pp

theorem vexByte_fields (w : Bool) (vvvv : BitVec 4) (l : Bool) (pp : BitVec 2) :
    (vexByte w vvvv l pp).getLsbD 7 = w ∧ (vexByte w vvvv l pp).extractLsb' 3 4 = vvvv ∧
      (vexByte w vvvv l pp).getLsbD 2 = l ∧ (vexByte w vvvv l pp).extractLsb' 0 2 = pp := by
  revert w vvvv l pp
  decide

/-- The inverted extension bits as VEX stores them (R99, R100). -/
def storedRxb (r x b : Bool) : BitVec 3 := BitVec.ofBool (!r) ++ BitVec.ofBool (!x) ++ BitVec.ofBool (!b)

theorem storedRxb_bits (r x b : Bool) :
    (!(storedRxb r x b).getLsbD 2) = r ∧ (!(storedRxb r x b).getLsbD 1) = x ∧ (!(storedRxb r x b).getLsbD 0) = b := by
  revert r x b
  decide

/-- The second byte of the three-byte prefix: map `00001b` below the extension bits (R100). -/
theorem vex3Byte_fields (r x b : Bool) :
    (storedRxb r x b ++ 1#5).extractLsb' 5 3 = storedRxb r x b ∧ (storedRxb r x b ++ 1#5).extractLsb' 0 5 = 1#5 ∧
      ((storedRxb r x b ++ 1#5).extractLsb' 6 2 = 3#2 ↔ r = false ∧ x = false) := by
  revert r x b
  decide

/-- The second byte of the two-byte prefix: `R` in the place of `W` (R99). -/
theorem vex2Byte_fields (r l : Bool) (vvvv : BitVec 4) (pp : BitVec 2) :
    (vexByte (!r) vvvv l pp).extractLsb' 7 1 ++ 3#2 = storedRxb r false false ∧
      0#1 ++ (vexByte (!r) vvvv l pp).extractLsb' 0 7 = vexByte false vvvv l pp ∧
      ((vexByte (!r) vvvv l pp).extractLsb' 6 2 = 3#2 ↔ r = false ∧ vvvv.getLsbD 3 = true) := by
  revert r l vvvv pp
  decide

/-- What follows the legacy prefixes of a VEX form, with any stored `W` and `vvvv` (R90, R99, R100). -/
def Fields.vexTail (f : Fields) (w : Bool) (vvvv : BitVec 4) : List Byte :=
  (if f.ext then [0xC4#8, storedRxb (extBit f.reg) f.rm.xBit f.rm.bBit ++ 1#5, vexByte w vvvv f.form.l f.form.pp]
   else [0xC5#8, vexByte (!extBit f.reg) vvvv f.form.l f.form.pp]) ++
    f.form.opcode :: f.rm.bytes (lowField f.reg)

/-- Outside 64-bit mode no register number is extended (R102). -/
theorem Fields.Encodable.extBits {f : Fields} (h : f.Encodable false) :
    extBit f.reg = false ∧ f.rm.xBit = false ∧ f.rm.bBit = false :=
  ⟨extBit_of_regOk h.reg, extBits_of_rmVecWf h.rm⟩

section
variable {m64 : Bool} {f : Fields} (h : f.Encodable m64) (hv : f.form.vex = true) {p : Prefixes} (hseg : p.seg = f.seg)
  (haddr : p.addr32 = f.addr32) {w : Bool} {vvvv : BitVec 4} (rex : Option Byte) (rest : List Byte)
include h hv hseg haddr

/-- The opcode and the operands of a VEX form, after its prefix. -/
theorem decodeVexOpcode_bytes {x b : Bool} (hw : (m64 && w) = f.form.w) (hx : (m64 && x) = f.rm.xBit)
    (hb : (m64 && b) = f.rm.bBit) (misplaced : Bool) :
    decodeVexOpcode m64 p misplaced f.ext (storedRxb (extBit f.reg) x b) 1 (vexByte w vvvv f.form.l f.form.pp)
        (f.form.opcode :: (f.rm.bytes (lowField f.reg) ++ rest)) =
      if misplaced || decide (vvvv ≠ 15) then .invalidOpcode else .ok f.instr rest := by
  obtain ⟨hbw, hbv, hbl, hbp⟩ := vexByte_fields w vvvv f.form.l f.form.pp
  obtain ⟨hsr, hsx, hsb⟩ := storedRxb_bits (extBit f.reg) x b
  have hr : (m64 && extBit f.reg) = extBit f.reg := extBit_eq_of_regOk (by simpa [hv] using h.reg)
  have hkey : selectForm (decodeKey true f.form.w f.form.l f.form.pp 1 f.form.opcode) = some f.form := by
    rw [← selectForm_bits, ← decodeKey_form, hv]
  simp only [decodeVexOpcode, hbw, hbv, hbl, hbp, hsr, hsx, hsb, hr, hw, hx, hb, hseg, haddr, hkey]
  exact decodeOperands_bytes h _ rest

/-- The three-byte prefix (R100); outside 64-bit mode it is told from LES by `R` and `X` (R102). -/
theorem decodeVex3_bytes (hext : f.ext = true) (hw : (m64 && w) = f.form.w) :
    decodeVex3 m64 p rex ((storedRxb (extBit f.reg) f.rm.xBit f.rm.bBit ++ 1#5) :: vexByte w vvvv f.form.l f.form.pp ::
        f.form.opcode :: (f.rm.bytes (lowField f.reg) ++ rest)) =
      if !vexAllowed p rex || decide (vvvv ≠ 15) then .invalidOpcode else .ok f.instr rest := by
  obtain ⟨hrxb, hmap, hles⟩ := vex3Byte_fields (extBit f.reg) f.rm.xBit f.rm.bBit
  have hvex : (!m64 && decide ((storedRxb (extBit f.reg) f.rm.xBit f.rm.bBit ++ 1#5).extractLsb' 6 2 ≠ 3)) = false := by
    cases m64 with
    | true => rfl
    | false =>
      obtain ⟨hr, hx, -⟩ := h.extBits
      simp [hles.2 ⟨hr, hx⟩]
  obtain ⟨hx, hb⟩ := extBits_eq_of_rmVecWf h.rm
  rw [hext, Bool.and_true] at hx hb
  rw [← decodeVexOpcode_bytes h hv hseg haddr rest hw hx hb, hext]
  simp only [decodeVex3, hvex, hrxb, hmap]
  rfl

/-- The two-byte prefix (R99); outside 64-bit mode it is told from LDS by `R` and the top bit of `vvvv` (R102). -/
theorem decodeVex2_bytes (hext : f.ext = false) (hw : f.form.w = false) (hvvvv : m64 = true ∨ vvvv.getLsbD 3 = true) :
    decodeVex2 m64 p rex (vexByte (!extBit f.reg) vvvv f.form.l f.form.pp ::
        f.form.opcode :: (f.rm.bytes (lowField f.reg) ++ rest)) =
      if !vexAllowed p rex || decide (vvvv ≠ 15) then .invalidOpcode else .ok f.instr rest := by
  obtain ⟨hrxb, hlow, hles⟩ := vex2Byte_fields (extBit f.reg) f.form.l vvvv f.form.pp
  have hvex : (!m64 && decide ((vexByte (!extBit f.reg) vvvv f.form.l f.form.pp).extractLsb' 6 2 ≠ 3)) = false := by
    cases m64 with
    | true => rfl
    | false =>
      obtain ⟨hr, -, -⟩ := h.extBits
      simp [hles.2 ⟨hr, by simpa using hvvvv⟩]
  obtain ⟨hx, hb⟩ := extBits_eq_of_rmVecWf h.rm
  rw [hext, Bool.and_false, Bool.false_and] at hx hb
  rw [← decodeVexOpcode_bytes h hv hseg haddr (w := false) (x := false) (b := false) rest (by simp [hw])
    (by rw [← hx, Bool.and_false]) (by rw [← hb, Bool.and_false]), hext]
  simp only [decodeVex2, hvex, hrxb, hlow]
  rfl

/-- Steps 3 to 6 of R112 on a VEX form: outside its place, or with another `vvvv` than `1111b`, it is `#UD` (R101, R119). -/
theorem decodeEscape_vexTail (hw : (m64 && f.ext && w) = f.form.w)
    (hvvvv : m64 = true ∨ f.ext = true ∨ vvvv.getLsbD 3 = true) :
    decodeEscape m64 p rex (f.vexTail w vvvv ++ rest) =
      if !vexAllowed p rex || decide (vvvv ≠ 15) then .invalidOpcode else .ok f.instr rest := by
  cases hext : f.ext with
  | true =>
    rw [← decodeVex3_bytes h hv hseg haddr rex rest hext (by simpa [hext] using hw)]
    simp [Fields.vexTail, hext, decodeEscape]
  | false =>
    rw [← decodeVex2_bytes h hv hseg haddr rex rest hext (by simpa [hext] using hw.symm) (by simpa [hext] using hvvvv)]
    simp [Fields.vexTail, hext, decodeEscape]

end

/-- The first byte of a VEX prefix is no REX byte. -/
theorem decodeRex_vexTail (m64 : Bool) (f : Fields) (w : Bool) (vvvv : BitVec 4) (p : Prefixes) (rest : List Byte) :
    decodeRex m64 p (f.vexTail w vvvv ++ rest) = decodeEscape m64 p none (f.vexTail w vvvv ++ rest) := by
  unfold Fields.vexTail
  split <;> simp [decodeRex]

end Sys2Proof
end

section
/-! The legacy prefixes (step 1 of R112), and from them the decoding of a whole encoding: as the encoder writes it, with one
more byte before the opcode (R96, R101), with another `vvvv` or `W` in VEX (R103, R119), and of row 24 outside 64-bit mode
(R120). -/

namespace Sys2Proof

/-! ### The legacy prefixes (R93 to R95) -/

/-- What one prefix byte makes of the prefixes read before it (R94, R95). -/
def Prefixes.read (m64 : Bool) (p : Prefixes) : PrefixRole → Except DecodeRefusal Prefixes
  | .lock => .ok { p with lock := true }
  | .mandatory pp =>
    if p.mandatory.isSome then .error .severalMandatoryPrefixes else .ok { p with mandatory := some pp }
  | .segment s => if p.seg.isSome then .error .severalSegmentPrefixes else .ok { p with seg := some s }
  | .addressSize =>
    if !m64 then .error .addressSize16
    else if p.addr32 then .error .severalAddressSizePrefixes
    else .ok { p with addr32 := true }

/-- A byte that is no prefix ends the scan. -/
theorem scanPrefixes_of_no_role {b : Byte} (hb : prefixRole b = none) (m64 : Bool) (p : Prefixes) (t : List Byte) :
    scanPrefixes m64 p (b :: t) = .ok (p, b :: t) := by
  simp [scanPrefixes, hb]

/-- A prefix byte is read, and the scan goes on. -/
theorem scanPrefixes_of_role {b : Byte} {role : PrefixRole} (hb : prefixRole b = some role) (m64 : Bool) (p : Prefixes)
    (t : List Byte) : scanPrefixes m64 p (b :: t) = (p.read m64 role).bind fun q => scanPrefixes m64 q t := by
  simp only [scanPrefixes, hb]
  cases role with
  | lock => rfl
  | _ =>
    simp only [Prefixes.read]
    split_ifs <;> rfl

theorem scanPrefixes_of_role_eq_ok_iff {b : Byte} {role : PrefixRole} (hb : prefixRole b = some role) {m64 : Bool}
    {p q : Prefixes} {t u : List Byte} :
    scanPrefixes m64 p (b :: t) = .ok (q, u) ↔
      ∃ p', p.read m64 role = .ok p' ∧ scanPrefixes m64 p' t = .ok (q, u) := by
  rw [scanPrefixes_of_role hb]
  cases p.read m64 role <;> simp [Except.bind]

/-- Two texts that a scan takes alike may change places behind the same prefix bytes. -/
theorem scanPrefixes_append_congr {m64 : Bool} {pre post post' t t' : List Byte} {q q' : Prefixes}
    (hpre : ∀ b ∈ pre, (prefixRole b).isSome = true)
    (hpost : ∀ p, scanPrefixes m64 p post = .ok (q, t) → scanPrefixes m64 p post' = .ok (q', t')) {p : Prefixes}
    (h : scanPrefixes m64 p (pre ++ post) = .ok (q, t)) : scanPrefixes m64 p (pre ++ post') = .ok (q', t') := by
  induction pre generalizing p with
  | nil => exact hpost p h
  | cons b pre ih =>
    obtain ⟨role, hb⟩ := Option.isSome_iff_exists.1 (hpre b List.mem_cons_self)
    obtain ⟨p', hp, hs⟩ := (scanPrefixes_of_role_eq_ok_iff hb).1 h
    exact (scanPrefixes_of_role_eq_ok_iff hb).2 ⟨p', hp, ih (fun x hx => hpre x (List.mem_cons_of_mem b hx)) hs⟩

/-- A prefix byte of this role can be put in anywhere on a scan that ends in `P`: where it is read it acts as `g`, and `g` may
be moved past every other byte read. -/
structure Insertable (m64 : Bool) (role : PrefixRole) (g : Prefixes → Prefixes) (P : Prefixes → Prop) : Prop where
  read : ∀ p, P p → p.read m64 role = .ok (g p)
  commute : ∀ r p p', p.read m64 r = .ok p' → P p' → P p ∧ (g p).read m64 r = .ok (g p')

/-- LOCK may stand anywhere (R96; log entry 14). -/
theorem insertable_lock (m64 : Bool) : Insertable m64 .lock ({ · with lock := true }) fun _ => True where
  read _ _ := rfl
  commute r p p' h _ := by
    refine ⟨trivial, ?_⟩
    cases r with
    | lock => cases h; rfl
    | _ =>
      simp only [Prefixes.read] at h ⊢
      split_ifs at h ⊢
      cases h
      rfl

/-- A mandatory prefix may stand anywhere while it is the only one (R94). -/
theorem insertable_mandatory (m64 : Bool) (pp : BitVec 2) :
    Insertable m64 (.mandatory pp) ({ · with mandatory := some pp }) (·.mandatory = none) where
  read p hp := by simp [Prefixes.read, hp]
  commute r p p' h hp := by
    cases r with
    | lock => cases h; exact ⟨hp, rfl⟩
    | mandatory =>
      simp only [Prefixes.read] at h
      split_ifs at h
      cases h
      cases hp
    | _ =>
      simp only [Prefixes.read] at h ⊢
      split_ifs at h ⊢
      cases h
      exact ⟨hp, rfl⟩

/-- What is read before a scan shows at its end. -/
theorem Insertable.scan_eq_ok {m64 : Bool} {role : PrefixRole} {g : Prefixes → Prefixes} {P : Prefixes → Prop}
    (hg : Insertable m64 role g P) {bytes t : List Byte} {p q : Prefixes} (h : scanPrefixes m64 p bytes = .ok (q, t))
    (hq : P q) :
    P p ∧ scanPrefixes m64 (g p) bytes = .ok (g q, t) := by
  induction bytes generalizing p with
  | nil =>
    cases h
    exact ⟨hq, rfl⟩
  | cons b bytes ih =>
    cases hb : prefixRole b with
    | none =>
      rw [scanPrefixes_of_no_role hb] at h ⊢
      cases h
      exact ⟨hq, rfl⟩
    | some r =>
      obtain ⟨p', hp, hs⟩ := (scanPrefixes_of_role_eq_ok_iff hb).1 h
      obtain ⟨hp', hs'⟩ := ih hs
      obtain ⟨hP, hr⟩ := hg.commute r p p' hp hp'
      exact ⟨hP, (scanPrefixes_of_role_eq_ok_iff hb).2 ⟨_, hr, hs'⟩⟩

/-- A prefix byte put in among prefix bytes. -/
theorem Insertable.scan_insert {m64 : Bool} {role : PrefixRole} {g : Prefixes → Prefixes} {P : Prefixes → Prop}
    (hg : Insertable m64 role g P) {b : Byte} (hb : prefixRole b = some role) {pre post t : List Byte} {p q : Prefixes}
    (hpre : ∀ b ∈ pre, (prefixRole b).isSome = true) (h : scanPrefixes m64 p (pre ++ post) = .ok (q, t)) (hq : P q) :
    scanPrefixes m64 p (pre ++ b :: post) = .ok (g q, t) := by
  refine scanPrefixes_append_congr hpre (fun p' h' => ?_) h
  obtain ⟨hP, hs⟩ := hg.scan_eq_ok h' hq
  exact (scanPrefixes_of_role_eq_ok_iff hb).2 ⟨_, hg.read p' hP, hs⟩

/-! ### The legacy prefixes of an encoding -/

theorem prefixRole_segByte (s : Seg) : prefixRole s.byte = some (.segment s) := by
  cases s <;> rfl

theorem scanPrefixes_ppBytes (m64 : Bool) {p : Prefixes} (hp : p.mandatory = none) (pp : BitVec 2) (t : List Byte) :
    scanPrefixes m64 p (ppBytes pp ++ t) =
      scanPrefixes m64 { p with mandatory := if pp = 0 then none else some pp } t := by
  have hcases : pp = 0 ∨ pp = 1 ∨ pp = 2 ∨ pp = 3 := by
    revert pp
    decide
  obtain ⟨_, _, _, _⟩ := p
  cases hp
  rcases hcases with rfl | rfl | rfl | rfl <;> rfl

/-- The segment override and `67` of an encoding; `67` is refused outside 64-bit mode (R95). -/
theorem scanPrefixes_prefixBytes (m64 : Bool) (seg : Option Seg) (addr32 : Bool) (t : List Byte) :
    scanPrefixes m64 .empty (prefixBytes seg addr32 ++ t) =
      if addr32 && !m64 then .error .addressSize16
      else scanPrefixes m64 { Prefixes.empty with seg := seg, addr32 := addr32 } t := by
  have haddr : ∀ p : Prefixes, p.addr32 = false →
      scanPrefixes m64 p ((if addr32 then [0x67#8] else []) ++ t) =
        if addr32 && !m64 then .error .addressSize16 else scanPrefixes m64 { p with addr32 := addr32 } t := by
    rintro ⟨_, _, _, _⟩ rfl
    cases addr32 <;> cases m64 <;> rfl
  cases seg with
  | none => exact haddr _ rfl
  | some s =>
    refine Eq.trans ?_ (haddr { Prefixes.empty with seg := some s } rfl)
    exact scanPrefixes_of_role (prefixRole_segByte s) ..

/-! ### The encoding of an instruction, decoded -/

/-- The prefixes that the encoder writes. -/
def Fields.prefixes (f : Fields) : Prefixes :=
  { mandatory := if f.form.vex ∨ f.form.pp = 0 then none else some f.form.pp, seg := f.seg, addr32 := f.addr32,
    lock := false }

/-- What the encoder writes after the legacy prefixes. -/
def Fields.tail (f : Fields) : List Byte := if f.form.vex then f.vexTail f.form.w 15 else f.legacyTail

theorem Fields.vexBytes_eq (f : Fields) : f.vexBytes = prefixBytes f.seg f.addr32 ++ f.vexTail f.form.w 15 := by
  simp [Fields.vexBytes, Fields.vexTail, vexByte, storedRxb]

theorem Fields.vexTail_congr {f g : Fields} (hext : f.ext = g.ext) (hreg : f.reg = g.reg) (hrm : f.rm = g.rm)
    (hop : f.form.opcode = g.form.opcode) (hl : f.form.l = g.form.l) (hpp : f.form.pp = g.form.pp) {w : Bool}
    {vvvv : BitVec 4} : f.vexTail w vvvv = g.vexTail w vvvv := by
  simp only [Fields.vexTail, hext, hreg, hrm, hop, hl, hpp]

theorem encode_of_vex {i : Instr} (hv : i.fields.form.vex = true) :
    encode i = prefixBytes i.fields.seg i.fields.addr32 ++ i.fields.vexTail i.fields.form.w 15 := by
  rw [encode, if_pos hv, Fields.vexBytes_eq]

theorem encode_eq (i : Instr) :
    encode i = prefixBytes i.fields.seg i.fields.addr32 ++
      ((if i.fields.form.vex then [] else ppBytes i.fields.form.pp) ++ i.fields.tail) := by
  unfold encode Fields.tail
  split
  · simp [Fields.vexBytes_eq]
  · exact i.fields.legacyBytes_eq

theorem rexByte_ne_escape (w r x b : Bool) :
    rexByte w r x b ≠ 0x0F#8 ∧ rexByte w r x b ≠ 0xC5#8 ∧ rexByte w r x b ≠ 0xC4#8 := by
  revert w r x b
  decide

theorem prefixRole_rexByte (w r x b : Bool) : prefixRole (rexByte w r x b) = none := by
  revert w r x b
  decide

/-- What follows the legacy prefixes begins with none: the scan ends there. -/
theorem scanPrefixes_vexTail (m64 : Bool) (p : Prefixes) (f : Fields) (w : Bool) (vvvv : BitVec 4) (rest : List Byte) :
    scanPrefixes m64 p (f.vexTail w vvvv ++ rest) = .ok (p, f.vexTail w vvvv ++ rest) := by
  unfold Fields.vexTail
  split <;> exact scanPrefixes_of_no_role rfl ..

theorem scanPrefixes_legacyTail (m64 : Bool) (p : Prefixes) (f : Fields) (rest : List Byte) :
    scanPrefixes m64 p (f.legacyTail ++ rest) = .ok (p, f.legacyTail ++ rest) := by
  unfold Fields.legacyTail
  split
  · exact scanPrefixes_of_no_role (prefixRole_rexByte ..) ..
  · exact scanPrefixes_of_no_role rfl ..

/-- Step 1 of R112 on an encoding. -/
theorem scanPrefixes_encode {m64 : Bool} {i : Instr} (h : i.fields.addr32 = true → m64 = true) (rest : List Byte) :
    scanPrefixes m64 .empty (encode i ++ rest) = .ok (i.fields.prefixes, i.fields.tail ++ rest) := by
  have haddr : (i.fields.addr32 && !m64) = false := by simpa using h
  rw [encode_eq, List.append_assoc, scanPrefixes_prefixBytes, haddr, if_neg (by decide), List.append_assoc]
  unfold Fields.prefixes Fields.tail
  cases hv : i.fields.form.vex with
  | true => exact (scanPrefixes_vexTail ..).trans (by simp [Prefixes.empty])
  | false =>
    rw [if_neg (by decide), scanPrefixes_ppBytes m64 rfl]
    exact (scanPrefixes_legacyTail ..).trans (by simp [Prefixes.empty])

theorem Fields.Encodable.w_eq {m64 : Bool} {f : Fields} (h : f.Encodable m64) :
    (m64 && f.ext && f.form.w) = f.form.w := by
  have hw := h.wide
  cases hf : f.form.w <;> simp_all

/-- Steps 3 to 6 of R112 on the encoding of a VEX form, after any prefixes and REX: out of its place it is `#UD` (R101). -/
theorem decodeEscape_tail {m64 : Bool} {i : Instr} (h : i.wf m64 = true) (hv : i.fields.form.vex = true) {p : Prefixes}
    (hseg : p.seg = i.fields.seg) (haddr : p.addr32 = i.fields.addr32) (rex : Option Byte) (rest : List Byte) :
    decodeEscape m64 p rex (i.fields.tail ++ rest) = if vexAllowed p rex then .ok i rest else .invalidOpcode := by
  have henc := Instr.encodable_of_wf h
  rw [Fields.tail, if_pos hv, decodeEscape_vexTail henc hv hseg haddr rex rest henc.w_eq (.inr (.inr rfl)), i.instr_fields]
  cases vexAllowed p rex <;> rfl

/-- Steps 2 to 6 of R112 on the encoding of a VEX form, after any prefixes. -/
theorem decodeRex_tail_vex {m64 : Bool} {i : Instr} (h : i.wf m64 = true) (hv : i.fields.form.vex = true) {p : Prefixes}
    (hseg : p.seg = i.fields.seg) (haddr : p.addr32 = i.fields.addr32) (rest : List Byte) :
    decodeRex m64 p (i.fields.tail ++ rest) = if vexAllowed p none then .ok i rest else .invalidOpcode := by
  rw [← decodeEscape_tail h hv hseg haddr none rest, Fields.tail, if_pos hv]
  exact decodeRex_vexTail ..

/-- Steps 2 to 6 of R112 on an encoding, after its own prefixes and perhaps LOCK (R96). -/
theorem decodeRex_tail {m64 : Bool} {i : Instr} (h : i.wf m64 = true) (lock : Bool) (rest : List Byte) :
    decodeRex m64 { i.fields.prefixes with lock := lock } (i.fields.tail ++ rest) =
      if lock then .invalidOpcode else .ok i rest := by
  cases hv : i.fields.form.vex with
  | true =>
    rw [decodeRex_tail_vex h hv rfl rfl]
    cases lock <;> simp [vexAllowed, Fields.prefixes, hv]
  | false =>
    have hpp : i.fields.prefixes.mandatory.getD 0 = i.fields.form.pp := by
      simp only [Fields.prefixes, hv, Bool.false_eq_true, false_or]
      split_ifs with hpp
      · exact hpp.symm
      · rfl
    have hd := decodeRex_legacyTail (p := { i.fields.prefixes with lock := lock }) (Instr.encodable_of_wf h) hv hpp
      rfl rfl rest
    rw [i.instr_fields] at hd
    rwa [Fields.tail, if_neg (by simp [hv])]

theorem decode_of_scanPrefixes {m64 : Bool} {bytes t : List Byte} {p : Prefixes}
    (h : scanPrefixes m64 .empty bytes = .ok (p, t)) : decode m64 bytes = decodeRex m64 p t := by
  simp [decode, h]

/-- The decoder reads an encoding back. -/
theorem decode_encode {m64 : Bool} {i : Instr} (h : i.wf m64 = true) (rest : List Byte) :
    decode m64 (encode i ++ rest) = .ok i rest :=
  (decode_of_scanPrefixes (scanPrefixes_encode (Instr.encodable_of_wf h).addr32 rest)).trans (decodeRex_tail h false rest)

/-- The decoder reads a text back that is the encoding of a well-formed instruction. -/
theorem decode_eq_of_encode {m64 : Bool} {i : Instr} {bytes : List Byte} (h : i.wf m64 = true) (hb : encode i = bytes) :
    decode m64 bytes = .ok i [] := by
  simpa [hb] using decode_encode h []

/-! ### One more byte before the opcode (R96, R101) -/

section
variable {m64 : Bool} {i : Instr} {pre post : List Byte} (h : i.wf m64 = true) (he : encode i = pre ++ post)
  (hpre : ∀ b ∈ pre, (prefixRole b).isSome = true)

include h he in
theorem scanPrefixes_of_encode_eq (rest : List Byte) :
    scanPrefixes m64 .empty (pre ++ (post ++ rest)) = .ok (i.fields.prefixes, i.fields.tail ++ rest) := by
  rw [← List.append_assoc, ← he, scanPrefixes_encode (Instr.encodable_of_wf h).addr32]

include h he hpre

/-- A LOCK byte among the prefixes of an encoding is `#UD` (R96). -/
theorem decode_lock (rest : List Byte) : decode m64 ((pre ++ 0xF0#8 :: post) ++ rest) = .invalidOpcode := by
  have hs := (insertable_lock m64).scan_insert (b := 0xF0#8) rfl hpre (scanPrefixes_of_encode_eq h he rest) trivial
  rw [List.append_assoc, List.cons_append, decode_of_scanPrefixes hs, decodeRex_tail h true rest]
  rfl

/-- A mandatory prefix among the prefixes of a VEX form is `#UD` (R101). -/
theorem decode_vex_mandatory (hv : i.fields.form.vex = true) {b : Byte} {pp : BitVec 2}
    (hb : prefixRole b = some (.mandatory pp)) (rest : List Byte) :
    decode m64 ((pre ++ b :: post) ++ rest) = .invalidOpcode := by
  have hs := (insertable_mandatory m64 pp).scan_insert hb hpre (scanPrefixes_of_encode_eq h he rest)
    (by simp [Fields.prefixes, hv])
  rw [List.append_assoc, List.cons_append, decode_of_scanPrefixes hs, decodeRex_tail_vex h hv rfl rfl]
  simp [vexAllowed]

end

/-- No REX byte is a legacy prefix (R93, R97). -/
theorem prefixRole_of_rex {b : Byte} (hb : b.extractLsb' 4 4 = 4#4) : prefixRole b = none := by
  revert b
  decide

/-- A REX byte directly before the prefix of a VEX form is `#UD` (R101). -/
theorem decode_vex_rex {i : Instr} {pre post : List Byte} (h : i.wf true = true) (he : encode i = pre ++ post)
    (hpre : ∀ b ∈ pre, (prefixRole b).isSome = true) (hv : i.fields.form.vex = true) {b : Byte}
    (hb : b.extractLsb' 4 4 = 4#4) (hpost : post.head? = some 0xC4#8 ∨ post.head? = some 0xC5#8) (rest : List Byte) :
    decode true ((pre ++ b :: post) ++ rest) = .invalidOpcode := by
  have hend : ∀ p, scanPrefixes true p (post ++ rest) = .ok (p, post ++ rest) := by
    intro p
    cases post with
    | nil => simp at hpost
    | cons c post =>
      refine scanPrefixes_of_no_role ?_ ..
      rcases hpost with hc | hc <;> cases hc <;> rfl
  have hs : scanPrefixes true .empty (pre ++ b :: (post ++ rest)) =
      .ok (i.fields.prefixes, b :: (i.fields.tail ++ rest)) := by
    refine scanPrefixes_append_congr hpre (fun p hp => ?_) (scanPrefixes_of_encode_eq h he rest)
    simp only [hend, Except.ok.injEq, Prod.mk.injEq] at hp
    obtain ⟨rfl, ht⟩ := hp
    rw [scanPrefixes_of_no_role (prefixRole_of_rex hb), ht]
  have hx := decodeEscape_tail h hv (p := i.fields.prefixes) rfl rfl (some b) rest
  rw [List.append_assoc, List.cons_append, decode_of_scanPrefixes hs]
  simpa [decodeRex, hb, vexAllowed] using hx

/-! ### Another stored `W` or `vvvv` (R103, R119) -/

/-- The bytes of a VEX form with any stored `vvvv`, and any `W` that counts as the form's own (R103). -/
theorem decode_vexTail {m64 : Bool} {i : Instr} (h : i.wf m64 = true) (hv : i.fields.form.vex = true) {w : Bool}
    (hw : (m64 && i.fields.ext && w) = i.fields.form.w) {vvvv : BitVec 4}
    (hvvvv : m64 = true ∨ i.fields.ext = true ∨ vvvv.getLsbD 3 = true) (rest : List Byte) :
    decode m64 ((prefixBytes i.fields.seg i.fields.addr32 ++ i.fields.vexTail w vvvv) ++ rest) =
      if vvvv = 15 then .ok i rest else .invalidOpcode := by
  have henc := Instr.encodable_of_wf h
  have haddr : (i.fields.addr32 && !m64) = false := by simpa using henc.addr32
  have hs := scanPrefixes_prefixBytes m64 i.fields.seg i.fields.addr32 (i.fields.vexTail w vvvv ++ rest)
  rw [haddr, if_neg (by decide), scanPrefixes_vexTail] at hs
  rw [List.append_assoc, decode_of_scanPrefixes hs, decodeRex_vexTail,
    decodeEscape_vexTail henc hv rfl rfl none rest hw hvvvv, i.instr_fields]
  by_cases hne : vvvv = 15 <;> simp [hne, vexAllowed, Prefixes.empty]

/-! ### The rows of 64-bit mode outside it (R103, R120) -/

theorem Form.form_build (f : Form) (h : Head) (reg : BitVec 3) (rm : RawRM) : (f.build h reg rm).fields.form = f := by
  cases f <;> rfl

theorem form_of_decodeOperands {m64 : Bool} {f : Form} {h : Head} {invalid : Bool} {bytes rest : List Byte} {i : Instr}
    (hd : decodeOperands m64 f h invalid bytes = .ok i rest) : i.fields.form = f := by
  unfold decodeOperands at hd
  split at hd
  · cases hd
  split at hd
  · cases hd
  split at hd
  · cases hd
  · cases hd
    exact f.form_build ..

/-- A row with `W = 1` is selected only by a key with `W = 1` (R111). -/
theorem w_of_selectForm {vex l : Bool} {pp : BitVec 2} {opMap : BitVec 5} {op : Byte} {f : Form}
    (h : selectForm (decodeKey vex false l pp opMap op) = some f) : f.w = false := by
  have hkey : decodeKey vex false l pp opMap op &&& f.mask = f.bits := by
    unfold selectForm at h
    simpa using List.find?_some h
  have hw : (decodeKey vex false l pp opMap op).getLsbD 16 = false := by
    simp only [decodeKey, BitVec.getLsbD_append]
    simp
  rw [Form.w, ← hkey, BitVec.getLsbD_and, hw, Bool.false_and]

/-- Without REX a legacy form has `W = 0` (R97). -/
theorem w_of_decodeLegacyOpcode {m64 : Bool} {p : Prefixes} {bytes rest : List Byte} {i : Instr}
    (h : decodeLegacyOpcode m64 p none bytes = .ok i rest) : i.fields.form.w = false := by
  unfold decodeLegacyOpcode at h
  split at h
  · cases h
  dsimp only at h
  split at h
  · cases h
  · rename_i f hf
    rw [form_of_decodeOperands h]
    exact w_of_selectForm hf

/-- Outside 64-bit mode the `W` of a VEX form counts as 0 (R103). -/
theorem w_of_decodeVexOpcode {p : Prefixes} {misplaced three : Bool} {rxb : BitVec 3} {opMap : BitVec 5} {wvlp : Byte}
    {bytes rest : List Byte} {i : Instr}
    (h : decodeVexOpcode false p misplaced three rxb opMap wvlp bytes = .ok i rest) : i.fields.form.w = false := by
  unfold decodeVexOpcode at h
  split at h
  · cases h
  split at h
  · split at h <;> cases h
  · rename_i f hf
    rw [form_of_decodeOperands h]
    exact w_of_selectForm hf

theorem w_of_decodeVex2 {p : Prefixes} {rex : Option Byte} {bytes rest : List Byte} {i : Instr}
    (h : decodeVex2 false p rex bytes = .ok i rest) : i.fields.form.w = false := by
  unfold decodeVex2 at h
  split at h
  · cases h
  split at h
  · cases h
  · exact w_of_decodeVexOpcode h

theorem w_of_decodeVex3 {p : Prefixes} {rex : Option Byte} {bytes rest : List Byte} {i : Instr}
    (h : decodeVex3 false p rex bytes = .ok i rest) : i.fields.form.w = false := by
  unfold decodeVex3 at h
  split at h
  · cases h
  split at h
  · cases h
  split at h
  · cases h
  · exact w_of_decodeVexOpcode h

theorem w_of_decodeEscape {p : Prefixes} {bytes rest : List Byte} {i : Instr}
    (h : decodeEscape false p none bytes = .ok i rest) : i.fields.form.w = false := by
  unfold decodeEscape at h
  split at h
  · cases h
  split at h
  · exact w_of_decodeLegacyOpcode h
  split at h
  · exact w_of_decodeVex2 h
  split at h
  · exact w_of_decodeVex3 h
  · split at h <;> cases h

/-- No row with `W = 1` is decoded outside 64-bit mode (R103, R120). -/
theorem w_of_decode {bytes rest : List Byte} {i : Instr} (h : decode false bytes = .ok i rest) :
    i.fields.form.w = false := by
  unfold decode decodeRex at h
  split at h
  · cases h
  split at h
  · cases h
  · exact w_of_decodeEscape (by simpa using h)

/-- Outside 64-bit mode a legacy form with REX is refused: the REX byte is no prefix there, and begins no form (R97, R120). -/
theorem decode_rex_refused {i : Instr} (hv : i.fields.form.vex = false) (hrex : i.fields.ext = true) (rest : List Byte) :
    ∃ r, decode false (encode i ++ rest) = .refused r := by
  cases haddr : i.fields.addr32 with
  | true =>
    refine ⟨.addressSize16, ?_⟩
    rw [decode, encode_eq, List.append_assoc, scanPrefixes_prefixBytes, haddr]
    rfl
  | false =>
    refine ⟨.notInSpec, ?_⟩
    rw [decode_of_scanPrefixes (scanPrefixes_encode (by simp [haddr]) rest), Fields.tail, if_neg (by simp [hv]),
      Fields.legacyTail, if_pos hrex]
    obtain ⟨h0f, hc5, hc4⟩ := rexByte_ne_escape i.fields.form.w (extBit i.fields.reg) i.fields.rm.xBit i.fields.rm.bBit
    simp [decodeRex, decodeEscape, h0f, hc5, hc4]

/-- The bytes of row 26 are those of row 25 with `W = 1` (R118). -/
theorem encode_vcvtsd2si64 (e : VexEnc) (d : GenReg) (src : RM 16) :
    encode (.vcvtsd2si64 e d src) =
      prefixBytes e.seg e.addr32 ++ (vexFields .vcvtsd2si32 e d src).vexTail true 15 := by
  have hop : Form.opcode .vcvtsd2si64 = Form.opcode .vcvtsd2si32 := rfl
  have hl : Form.l .vcvtsd2si64 = Form.l .vcvtsd2si32 := rfl
  have hpp : Form.pp .vcvtsd2si64 = Form.pp .vcvtsd2si32 := rfl
  have hv : (Instr.vcvtsd2si64 e d src).fields.form.vex = true := show Form.vex .vcvtsd2si64 = true from rfl
  have hw : (Instr.vcvtsd2si64 e d src).fields.form.w = true := show Form.w .vcvtsd2si64 = true from rfl
  rw [encode_of_vex hv, hw]
  exact congrArg _ (Fields.vexTail_congr (f := vexFields .vcvtsd2si64 e d src) (g := vexFields .vcvtsd2si32 e d src)
    rfl rfl rfl hop hl hpp)

/-- Outside 64-bit mode the bytes of row 26 are row 25 (R103, R120). -/
theorem decode_vcvtsd2si64 {e : VexEnc} {d : GenReg} {src : RM 16} (he : e.three = true)
    (h : (Instr.vcvtsd2si32 e d src).wf false = true) (rest : List Byte) :
    decode false (encode (.vcvtsd2si64 e d src) ++ rest) = .ok (.vcvtsd2si32 e d src) rest := by
  rw [encode_vcvtsd2si64]
  have hw : (false && (Instr.vcvtsd2si32 e d src).fields.ext && true) = (Instr.vcvtsd2si32 e d src).fields.form.w :=
    show false = Form.w .vcvtsd2si32 from rfl
  exact decode_vexTail h (show Form.vex .vcvtsd2si32 = true from rfl) hw (.inr (.inl he)) rest

end Sys2Proof
end

section
/-! The step on a text at `pc`, and the statements of `30_encoding.md` on `vvvv` (R119), LOCK (R96), the place of VEX among
the prefixes (R101), the rows of 64-bit mode (R120) and the examples (R127). -/

namespace Sys2Proof.Machine

/-! ### The step on a text at `pc` -/

theorem length_prefixBytes (seg : Option Seg) (addr32 : Bool) :
    (prefixBytes seg addr32).length = seg.toList.length + addr32.toNat := by
  cases seg <;> cases addr32 <;> rfl

theorem length_ppBytes (pp : BitVec 2) : (ppBytes pp).length = if pp = 0 then 0 else 1 := by
  unfold ppBytes
  split_ifs <;> rfl

theorem length_dispBytes (d : Disp) : d.bytes.length = d.len := by
  cases d <;> rfl

theorem length_rmBytes (rm : RM 16) (reg : BitVec 3) : (rm.bytes reg).length = 1 + rm.len := by
  rcases rm with r | m
  · rfl
  · cases m <;> simp [RM.bytes, RM.len, disp32Bytes, length_dispBytes] <;> omega

theorem length_vexTail (f : Fields) (w : Bool) (vvvv : BitVec 4) :
    (f.vexTail w vvvv).length = (if f.ext then 3 else 2) + 1 + 1 + f.rm.len := by
  unfold Fields.vexTail
  split <;> simp [length_rmBytes] <;> omega

theorem length_legacyTail (f : Fields) : f.legacyTail.length = f.ext.toNat + 2 + 1 + f.rm.len := by
  unfold Fields.legacyTail
  cases f.ext <;> simp [length_rmBytes] <;> omega

/-- The fields of an instruction make at most 12 bytes (R92). -/
theorem fieldsLen_le (f : Fields) : f.len ≤ 12 := by
  cases hv : f.form.vex with
  | true => exact (Laws.LengthBounds.vex f.form hv ⟨f.seg, f.addr32, f.ext⟩ f.reg f.rm).2
  | false => exact (Laws.LengthBounds.legacy f.form hv ⟨f.seg, f.addr32, f.ext⟩ f.reg f.rm).2

/-- The bytes of a VEX form, whatever `W` and `vvvv` are stored, fit the fetch window (R92). -/
theorem length_vex_le {f : Fields} (hv : f.form.vex = true) (w : Bool) (vvvv : BitVec 4) :
    (prefixBytes f.seg f.addr32 ++ f.vexTail w vvvv).length ≤ 12 := by
  have h := fieldsLen_le f
  simp only [Fields.len, hv, if_true] at h
  simp only [List.length_append, length_prefixBytes, length_vexTail]
  omega

theorem length_encode_le (i : Instr) : (encode i).length ≤ 12 := by
  cases hv : i.fields.form.vex with
  | true =>
    rw [encode_of_vex hv]
    exact length_vex_le hv ..
  | false =>
    have h := fieldsLen_le i.fields
    simp only [Fields.len, hv, Bool.false_eq_true, if_false] at h
    rw [encode, if_neg (by simp [hv]), Fields.legacyBytes_eq]
    simp only [List.length_append, length_prefixBytes, length_ppBytes, length_legacyTail]
    omega

theorem step_of_decodeAt_ok {s : State} {i : Instr} {rest : List Byte} (hm : s.mode.modelled = true)
    (hd : decodeAt s = .ok i rest) : step s = exec i s := by
  simp [step, hm, hd]

theorem step_of_decodeAt_invalidOpcode {s : State} (hm : s.mode.modelled = true) (hd : decodeAt s = .invalidOpcode) :
    step s = .fault .invalidOpcode := by
  simp [step, hm, hd, raise]

theorem step_of_decodeAt_refused {s : State} {r : DecodeRefusal} (hm : s.mode.modelled = true)
    (hd : decodeAt s = .refused r) : step s = .refused (.bytes r) := by
  simp [step, hm, hd]

/-- The decoder reads the text at `pc`, and bytes after it. -/
theorem decodeAt_text {s : State} {bytes : List Byte} (h : TextAt s bytes) (hlen : bytes.length ≤ 15) :
    ∃ rest, decodeAt s = decode s.mode64 (bytes ++ rest) := by
  obtain ⟨rest, hr⟩ := fetchWindow_text h hlen
  exact ⟨rest, by rw [decodeAt, hr]⟩

/-- A text that is an encoding `#UD` whatever follows it. -/
theorem step_of_invalid_text {s : State} {bytes : List Byte} (hm : s.mode.modelled = true) (h : TextAt s bytes)
    (hlen : bytes.length ≤ 15) (hd : ∀ rest, decode s.mode64 (bytes ++ rest) = .invalidOpcode) :
    step s = .fault .invalidOpcode := by
  obtain ⟨rest, hr⟩ := decodeAt_text h hlen
  exact step_of_decodeAt_invalidOpcode hm (hr.trans (hd rest))

/-- A step at the encoding of a well-formed instruction executes it. -/
theorem step_of_encode {s : State} {i : Instr} (hm : s.mode.modelled = true) (hwf : i.wf s.mode64 = true)
    (h : TextAt s (encode i)) : step s = exec i s := by
  obtain ⟨rest, hr⟩ := decodeAt_text h ((length_encode_le i).trans (by decide))
  exact step_of_decodeAt_ok hm (hr.trans (decode_encode hwf rest))

/-- One byte more than an encoding fits the fetch window (R92). -/
theorem length_insert_le {i : Instr} {pre post : List Byte} (he : encode i = pre ++ post) (b : Byte) :
    (pre ++ b :: post).length ≤ 15 := by
  have h := length_encode_le i
  rw [he] at h
  simp only [List.length_append, List.length_cons] at h ⊢
  omega

theorem exists_prefixRole_of_mandatory {b : Byte} (h : isMandatoryByte b = true) :
    ∃ pp, prefixRole b = some (.mandatory pp) := by
  simp only [isMandatoryByte, Bool.or_eq_true, decide_eq_true_eq] at h
  obtain (rfl | rfl) | rfl := h <;> exact ⟨_, rfl⟩

theorem vexBytesStored_eq (i : Instr) (vvvv : BitVec 4) :
    vexBytesStored i vvvv =
      prefixBytes i.fields.seg i.fields.addr32 ++ i.fields.vexTail i.fields.form.w vvvv := by
  simp [vexBytesStored, Fields.vexTail, vexByte, storedRxb]

/-! ### The statements -/

/-- Settles O4: each example is the encoding of a well-formed instruction. -/
theorem encodingExamplesDecode : Obligations.EncodingExamplesDecode := by
  refine ⟨?_, ?_, ?_, ?_, ?_, ?_, ?_, ?_, ?_⟩ <;> exact decode_eq_of_encode (by decide) (by decide)

/-- Settles O5: the VEX prefix is read with any `vvvv`, and `#UD` answered after the operands. -/
theorem vexVvvvOtherThanOnesRaisesInvalidOpcode : Obligations.VexVvvvOtherThanOnesRaisesInvalidOpcode := by
  intro s i vvvv hm hv hwf hne hvvvv ht
  rw [vexBytesStored_eq] at ht
  refine step_of_invalid_text hm ht ((length_vex_le hv ..).trans (by decide)) fun rest => ?_
  rw [decode_vexTail hwf hv (Instr.encodable_of_wf hwf).w_eq hvvvv, if_neg hne]

/-- Settles O6: the scan carries LOCK through, wherever it stands among the prefixes. -/
theorem lockPrefixRaisesInvalidOpcode : Obligations.LockPrefixRaisesInvalidOpcode :=
  fun _ _ _ _ hm hwf he hpre ht => step_of_invalid_text hm ht (length_insert_le he _) (decode_lock hwf he hpre)

/-- Settles O7: the scan carries a mandatory prefix or LOCK through to the VEX prefix, which does not allow it, nor a REX byte
directly before it. -/
theorem vexPrefixMustComeLast : Obligations.VexPrefixMustComeLast := by
  intro s i hm hv hwf
  refine ⟨fun pre post b he hpre hb ht => ?_, fun pre post b he hpre h64 hb hpost ht => ?_, step_of_encode hm hwf⟩
  · refine step_of_invalid_text hm ht (length_insert_le he b) ?_
    rcases hb with hb | rfl
    · obtain ⟨pp, hr⟩ := exists_prefixRole_of_mandatory hb
      exact decode_vex_mandatory hwf he hpre hv hr
    · exact decode_lock hwf he hpre
  · rw [h64] at hwf
    refine step_of_invalid_text hm ht (length_insert_le he b) ?_
    rw [h64]
    exact decode_vex_rex hwf he hpre hv (of_decide_eq_true hb) hpost

/-- Settles O9: outside 64-bit mode `W` is 0 in every decode key, a REX byte is no prefix, and `W` of a VEX prefix does not
count. -/
theorem sixtyFourBitRowsOutside64BitMode : Obligations.SixtyFourBitRowsOutside64BitMode := by
  have refused : ∀ (e : LegacyEnc) (d : GenReg) (src : RM 16) (rest : List Byte),
      (Instr.cvtsd2si64 e d src).wf true = true →
        ∃ r, decode false (encode (.cvtsd2si64 e d src) ++ rest) = .refused r := by
    intro e d src rest h
    simp only [Instr.wf, Bool.true_and, Bool.and_eq_true] at h
    obtain ⟨hrex, -⟩ := h
    have hv : (Instr.cvtsd2si64 e d src).fields.form.vex = false := show Form.vex .cvtsd2si64 = false from rfl
    exact decode_rex_refused hv hrex rest
  refine ⟨fun bytes rest e d src h => ?_, fun bytes rest e d src h => ?_, refused, fun s e d src hmode h ht => ?_,
    fun e d src rest he h => decode_vcvtsd2si64 he h rest⟩
  · exact absurd (w_of_decode h) (show Form.w .cvtsd2si64 ≠ false by decide)
  · exact absurd (w_of_decode h) (show Form.w .vcvtsd2si64 ≠ false by decide)
  · have h64 : s.mode64 = false := by simp [State.mode64, hmode]
    obtain ⟨rest, hr⟩ := decodeAt_text ht ((length_encode_le _).trans (by decide))
    obtain ⟨r, hd⟩ := refused e d src rest h
    exact ⟨r, step_of_decodeAt_refused (by rw [hmode]; rfl) (by rw [hr, h64, hd])⟩

end Sys2Proof.Machine
end

section
/-! SUPPORT for `40_conversion_primitives.md`: packing the fields of a bit string (R140), `Encode` (R146) and the exact values
(R141) over the rationals. -/

namespace Sys2Proof.Machine

/-! ### Packing and unpacking -/

/-- Concatenation is place value. -/
theorem toNat_append_eq_add {m n : Nat} (x : BitVec m) (y : BitVec n) :
    (x ++ y).toNat = x.toNat * 2 ^ n + y.toNat := by
  rw [BitVec.toNat_append, ← Nat.shiftLeft_add_eq_or_of_lt y.isLt, Nat.shiftLeft_eq]

theorem unpack64_pack64 {u : Unpacked} (he : u.exp < 2 ^ 11) (hf : u.frac < 2 ^ 52) : unpack64 (pack64 u) = u := by
  have hexp : (pack64 u).extractLsb' 52 11 = BitVec.ofNat 11 u.exp := by
    apply BitVec.eq_of_toNat_eq
    simp only [pack64, BitVec.extractLsb'_toNat, toNat_append_eq_add, BitVec.toNat_ofNat, Nat.shiftRight_eq_div_pow]
    omega
  have hfrac : (pack64 u).extractLsb' 0 52 = BitVec.ofNat 52 u.frac := BitVec.extractLsb'_append_eq_right
  have hsign : (pack64 u).getLsbD 63 = u.sign := by
    simp only [pack64, BitVec.getLsbD_append]
    simp
  simp only [unpack64, hsign, hexp, hfrac, BitVec.toNat_ofNat, Nat.mod_eq_of_lt he, Nat.mod_eq_of_lt hf]

theorem unpack32_pack32 {u : Unpacked} (he : u.exp < 2 ^ 8) (hf : u.frac < 2 ^ 23) : unpack32 (pack32 u) = u := by
  have hexp : (pack32 u).extractLsb' 23 8 = BitVec.ofNat 8 u.exp := by
    apply BitVec.eq_of_toNat_eq
    simp only [pack32, BitVec.extractLsb'_toNat, toNat_append_eq_add, BitVec.toNat_ofNat, Nat.shiftRight_eq_div_pow]
    omega
  have hfrac : (pack32 u).extractLsb' 0 23 = BitVec.ofNat 23 u.frac := BitVec.extractLsb'_append_eq_right
  have hsign : (pack32 u).getLsbD 31 = u.sign := by
    simp only [pack32, BitVec.getLsbD_append]
    simp
  simp only [unpack32, hsign, hexp, hfrac, BitVec.toNat_ofNat, Nat.mod_eq_of_lt he, Nat.mod_eq_of_lt hf]

/-- The fields `u` are those of a finite bit string of format `f`, of sign `s` and value `r` (R146). -/
structure Fmt.Holds (f : Fmt) (u : Unpacked) (s : Bool) (r : ℚ) : Prop where
  sign : u.sign = s
  exp : u.exp < f.expMax
  frac : u.frac < 2 ^ f.fbits
  val : f.val u = r

theorem Fmt.finiteClass_classify {f : Fmt} {u : Unpacked} (h : u.exp < f.expMax) : finiteClass (f.classify u) = true := by
  unfold Fmt.classify
  rw [if_neg (show u.exp ≠ f.expMax from h.ne)]
  split_ifs <;> rfl

theorem isF64_pack64 {u : Unpacked} {s : Bool} {r : ℚ} (h : f64.Holds u s r) : IsF64 (pack64 u) s r := by
  obtain ⟨hs, he, hf, hv⟩ := h
  rw [IsF64, unpack64_pack64 (he.trans (by decide)) hf]
  exact ⟨hs, Fmt.finiteClass_classify he, hv⟩

theorem isF32_pack32 {u : Unpacked} {s : Bool} {r : ℚ} (h : f32.Holds u s r) : IsF32 (pack32 u) s r := by
  obtain ⟨hs, he, hf, hv⟩ := h
  rw [IsF32, unpack32_pack32 (he.trans (by decide)) hf]
  exact ⟨hs, Fmt.finiteClass_classify he, hv⟩

/-! ### The value of a scaled integer -/

theorem Scaled.val_ne_zero {q : Scaled} (h : q.num ≠ 0) : q.val ≠ 0 :=
  mul_ne_zero (by exact_mod_cast h) (by positivity)

theorem Scaled.abs_val (q : Scaled) : |q.val| = q.num.natAbs * 2 ^ q.exp := by
  rw [Scaled.val, abs_mul, abs_of_pos (show (0 : ℚ) < 2 ^ q.exp by positivity), Nat.cast_natAbs, Int.cast_abs]

/-- The sign and the magnitude make the value. -/
theorem Scaled.sign_mul_abs (q : Scaled) : (if decide (q.num < 0) then -1 else 1) * |q.val| = q.val := by
  have hp : (0 : ℚ) < 2 ^ q.exp := by positivity
  by_cases h : q.num < 0
  · have : (q.num : ℚ) < 0 := by exact_mod_cast h
    rw [Scaled.val, abs_of_neg (mul_neg_of_neg_of_pos this hp)]
    simp [h]
  · have : (0 : ℚ) ≤ q.num := by exact_mod_cast not_lt.1 h
    rw [Scaled.val, abs_of_nonneg (mul_nonneg this hp.le)]
    simp [h]

/-- `floor(log2 |q|)` is the binary logarithm of the value (R145). -/
theorem Scaled.log2_eq {q : Scaled} (h : q.num ≠ 0) : q.log2 = Int.log 2 |q.val| := by
  have hm : q.num.natAbs ≠ 0 := Int.natAbs_ne_zero.2 h
  have hp : (0 : ℚ) < 2 ^ q.exp := by positivity
  have hpos : 0 < |q.val| := abs_pos.2 (Scaled.val_ne_zero h)
  have split : ∀ k : Nat, (2 : ℚ) ^ ((k : Int) + q.exp) = ((2 ^ k : Nat) : ℚ) * 2 ^ q.exp := fun k => by
    rw [zpow_add₀ (by norm_num), zpow_natCast]; push_cast; rfl
  apply le_antisymm
  · rw [← Int.zpow_le_iff_le_log (by norm_num) hpos, Scaled.abs_val, Scaled.log2]
    push_cast
    rw [split]
    exact mul_le_mul_of_nonneg_right (by exact_mod_cast Nat.log2_self_le hm) hp.le
  · rw [← Int.lt_add_one_iff, ← Int.lt_zpow_iff_log_lt (by norm_num) hpos, Scaled.abs_val, Scaled.log2, add_right_comm]
    push_cast
    rw [show ((q.num.natAbs.log2 : Int) + 1) = ((q.num.natAbs.log2 + 1 : Nat) : Int) by push_cast; rfl, split]
    exact mul_lt_mul_of_pos_right (by exact_mod_cast Nat.lt_log2_self) hp

theorem Scaled.abs_val_lt {q : Scaled} (h : q.num ≠ 0) : |q.val| < 2 ^ (q.log2 + 1) := by
  rw [Scaled.log2_eq h]
  exact_mod_cast Int.lt_zpow_succ_log_self (by norm_num) |q.val|

theorem Scaled.le_abs_val {q : Scaled} (h : q.num ≠ 0) : 2 ^ q.log2 ≤ |q.val| := by
  rw [Scaled.log2_eq h]
  exact_mod_cast Int.zpow_log_le_self (by norm_num) (abs_pos.2 (Scaled.val_ne_zero h))

/-- The machine's value of a bit string is the reference's (R141). -/
theorem Fmt.val_value (f : Fmt) (u : Unpacked) : (f.value u).val = f.val u := by
  unfold Fmt.value Fmt.val Scaled.val
  cases u.sign <;> by_cases h : u.exp = 0 <;> simp [h, -neg_add_rev]

/-! ### `Encode` -/

/-- `q` is 0 or the value of a normal bit string of format `f`. -/
structure Fmt.Fits (f : Fmt) (q : Scaled) : Prop where
  low : f.emin ≤ q.log2
  high : q.log2 + f.bias < f.expMax
  digits : 2 ^ q.num.natAbs.log2 ∣ q.num.natAbs * 2 ^ f.fbits

theorem log2_le_of_lt_two_pow {m n : Nat} (h : m < 2 ^ (n + 1)) : m.log2 ≤ n := by
  by_cases hm : m = 0
  · simp [hm]
  · exact Nat.lt_succ_iff.1 ((Nat.log2_lt hm).2 h)

/-- The digits of an integer of at most `n + 1` bits fit a fraction of `n` bits, and so does `2^(n+1)`, the integer to which
a rounding may carry. -/
theorem two_pow_log2_dvd {m n : Nat} (h : m ≤ 2 ^ (n + 1)) : 2 ^ m.log2 ∣ m * 2 ^ n := by
  rcases h.eq_or_lt with rfl | h
  · rw [Nat.log2_two_pow]
    exact Dvd.intro _ rfl
  · exact dvd_mul_of_dvd_right (pow_dvd_pow 2 (log2_le_of_lt_two_pow h)) m

/-- The fields that `Encode` gives a normal value. -/
theorem Fmt.encode_normal {f : Fmt} (s : Bool) {m : Nat} {exp : Int} (hm : m ≠ 0) (h : f.emin ≤ m.log2 + exp) :
    f.encode s m exp =
      { sign := s, exp := (m.log2 + exp + f.bias).toNat, frac := m * 2 ^ f.fbits / 2 ^ m.log2 - 2 ^ f.fbits } := by
  simp [Fmt.encode, hm, h]

/-- `Encode` of a value that fits is the bit string of that value. -/
theorem Fmt.holds_encode {f : Fmt} {q : Scaled} {s : Bool} (h : f.Fits q) (hs : s = decide (q.num < 0)) :
    f.Holds (f.encode s q.num.natAbs q.exp) s q.val := by
  obtain ⟨hlow, hhigh, hdvd⟩ := h
  rw [Scaled.log2] at hlow hhigh
  by_cases hm : q.num.natAbs = 0
  · have hmax : 0 < f.expMax := by unfold Fmt.emin at hlow; omega
    have hz : q.val = 0 := by simp [Scaled.val, Int.natAbs_eq_zero.1 hm]
    rw [hm, hz]
    exact ⟨rfl, hmax, Nat.two_pow_pos _, by simp [Fmt.encode, Fmt.val]⟩
  obtain ⟨k, hk⟩ := hdvd
  have hL := Nat.two_pow_pos q.num.natAbs.log2
  have hF := Nat.two_pow_pos f.fbits
  have hdiv : q.num.natAbs * 2 ^ f.fbits / 2 ^ q.num.natAbs.log2 = k := by rw [hk, Nat.mul_div_cancel_left _ hL]
  have hk0 : 2 ^ f.fbits ≤ k := by
    refine Nat.le_of_mul_le_mul_left ?_ hL
    rw [← hk]
    exact Nat.mul_le_mul_right _ (Nat.log2_self_le hm)
  have hk1 : k < 2 * 2 ^ f.fbits := by
    refine Nat.lt_of_mul_lt_mul_left (a := 2 ^ q.num.natAbs.log2) ?_
    rw [← hk, ← mul_assoc, ← pow_succ]
    exact Nat.mul_lt_mul_of_pos_right Nat.lt_log2_self hF
  rw [Fmt.encode_normal s hm hlow, hdiv]
  unfold Fmt.emin at hlow
  refine ⟨rfl, by simp only; omega, by simp only; omega, ?_⟩
  obtain ⟨e, he⟩ : ∃ e : Nat, (q.num.natAbs.log2 : Int) + q.exp + f.bias = e := ⟨_, (Int.toNat_of_nonneg (by omega)).symm⟩
  have hkq : (2 : ℚ) ^ f.fbits + ((k - 2 ^ f.fbits : Nat) : ℚ) = k := by
    rw [Nat.cast_sub hk0]; push_cast; ring
  have hscale : (k : ℚ) * 2 ^ ((q.num.natAbs.log2 : Int) + q.exp - f.fbits) = |q.val| := by
    have hkc : (q.num.natAbs : ℚ) * 2 ^ f.fbits = 2 ^ q.num.natAbs.log2 * k := by exact_mod_cast hk
    rw [Scaled.abs_val, zpow_sub₀ (by norm_num), zpow_add₀ (by norm_num), zpow_natCast, zpow_natCast]
    field_simp
    linear_combination -hkc
  have he0 : e ≠ 0 := by omega
  rw [he, Int.toNat_natCast]
  simp only [Fmt.val, he0, if_false, hkq, hs]
  rw [← he, add_sub_cancel_right, hscale]
  exact q.sign_mul_abs

end Sys2Proof.Machine
end

section
/-! SUPPORT for `40_conversion_primitives.md`: bounds on a rounded value (R143) and `RoundSig` over the rationals (R145). -/

namespace Sys2Proof.Machine

/-! ### A rounded value stays between grid points -/

/-- The rounding mode seen from the other side of 0. -/
def Rounding.mirror : Rounding → Rounding
  | .nearest => .nearest
  | .down => .up
  | .up => .down
  | .zero => .zero

section
variable {rc : Rounding} {g q r : ℚ} (hr : Rounds rc g q r) (hg : 0 < g) {k : Int}
include hr hg

theorem Rounds.le_of_le (hq : q ≤ k * g) : r ≤ k * g := by
  obtain ⟨n, rfl, hr⟩ := hr
  suffices h : n < k + 1 from mul_le_mul_of_nonneg_right (by exact_mod_cast Int.lt_add_one_iff.1 h) hg.le
  by_contra hn
  have hstep : (k : ℚ) * g + g ≤ n * g := by
    have : ((k + 1 : Int) : ℚ) ≤ n := by exact_mod_cast not_lt.1 hn
    push_cast at this
    nlinarith
  cases rc with
  | nearest =>
    have := (abs_le.1 hr.1).1
    linarith
  | down => linarith [hr.1]
  | up => linarith [hr.1]
  | zero =>
    obtain ⟨hle, hlt, hsign⟩ := hr
    rcases le_or_gt 0 q with h | h
    · rw [abs_of_nonneg h] at hle
      linarith [le_abs_self ((n : ℚ) * g)]
    · rw [abs_of_neg h, abs_of_nonpos (nonpos_of_mul_nonneg_left hsign h)] at hlt
      linarith

omit hg in
theorem Rounds.neg : Rounds rc.mirror g (-q) (-r) := by
  obtain ⟨n, rfl, hr⟩ := hr
  refine ⟨-n, by push_cast; ring, ?_⟩
  cases rc with
  | nearest =>
    obtain ⟨hdist, htie⟩ := hr
    have habs : |(-q) - (-(n * g))| = |q - n * g| := by rw [neg_sub_neg, abs_sub_comm]
    simp only [Rounding.mirror, habs]
    exact ⟨hdist, fun h => by have := htie h; omega⟩
  | down => exact ⟨by linarith [hr.2], by linarith [hr.1]⟩
  | up => exact ⟨by linarith [hr.2], by linarith [hr.1]⟩
  | zero =>
    simp only [Rounding.mirror, abs_neg, neg_mul_neg]
    exact hr

theorem Rounds.ge_of_ge (hq : k * g ≤ q) : k * g ≤ r := by
  have h := (hr.neg).le_of_le hg (k := -k) (by push_cast; linarith)
  push_cast at h
  linarith

/-- A value on the grid rounds to itself only. -/
theorem Rounds.eq_of_eq (hq : q = k * g) : r = q :=
  hq ▸ le_antisymm (hr.le_of_le hg hq.le) (hr.ge_of_ge hg hq.ge)

theorem Rounds.abs_le_of_abs_le (hq : |q| ≤ k * g) : |r| ≤ k * g := by
  obtain ⟨hlow, hhigh⟩ := abs_le.1 hq
  have h := hr.ge_of_ge hg (k := -k) (by push_cast; linarith)
  push_cast at h
  exact abs_le.2 ⟨by linarith, hr.le_of_le hg hhigh⟩

end

/-! ### `RoundSig` -/

/-- `roundSig` gives the multiple of the grid of R145 that R143 picks, and says whether it differs from the value. -/
theorem Scaled.roundSig_spec {q : Scaled} (h : q.num ≠ 0) (p : Nat) (rc : Rounding) :
    Rounds rc (sigGrid p q.val) q.val (q.roundSig p rc).1.val ∧
    ((q.roundSig p rc).2 = true ↔ (q.roundSig p rc).1.val ≠ q.val) := by
  rw [sigGrid, ← Scaled.log2_eq h]
  exact q.roundTo_spec _ rc

theorem Scaled.roundTo_le {q : Scaled} {grid k : Int} (h : q.val ≤ k * 2 ^ grid) (rc : Rounding) :
    (q.roundTo grid rc).1 ≤ k := by
  have hg : (0 : ℚ) < 2 ^ grid := by positivity
  exact_mod_cast le_of_mul_le_mul_right ((q.roundTo_spec grid rc).1.le_of_le hg h) hg

theorem Scaled.le_roundTo {q : Scaled} {grid k : Int} (h : k * 2 ^ grid ≤ q.val) (rc : Rounding) :
    k ≤ (q.roundTo grid rc).1 := by
  have hg : (0 : ℚ) < 2 ^ grid := by positivity
  exact_mod_cast le_of_mul_le_mul_right ((q.roundTo_spec grid rc).1.ge_of_ge hg h) hg

theorem Scaled.roundSig_exp (q : Scaled) (n : Nat) (rc : Rounding) : (q.roundSig (n + 1) rc).1.exp = q.log2 - n := by
  simp only [Scaled.roundSig]
  push_cast
  ring

theorem Scaled.roundSig_num (q : Scaled) (n : Nat) (rc : Rounding) :
    (q.roundSig (n + 1) rc).1.num = (q.roundTo (q.log2 - n) rc).1 := by
  rw [← q.roundSig_exp n rc]
  rfl

/-- The grid of `RoundSig` divides the binade of the value into `2^n` steps. -/
theorem two_pow_mul_grid (n : Nat) (e : Int) : ((2 ^ n : Int) : ℚ) * 2 ^ (e - n) = 2 ^ e := by
  push_cast
  rw [← zpow_natCast, ← zpow_add₀ (by norm_num), add_sub_cancel]

/-- A value rounded to `n + 1` bits has its sign, and a magnitude of `n + 1` bits or, by a carry, `2^(n+1)`. -/
theorem Scaled.roundSig_bounds {q : Scaled} (h : q.num ≠ 0) (n : Nat) (rc : Rounding) :
    2 ^ n ≤ (q.roundSig (n + 1) rc).1.num.natAbs ∧ (q.roundSig (n + 1) rc).1.num.natAbs ≤ 2 ^ (n + 1) ∧
    ((q.roundSig (n + 1) rc).1.num < 0 ↔ q.num < 0) := by
  have hp : (0 : ℚ) < 2 ^ q.exp := by positivity
  have hlow : ((2 ^ n : Int) : ℚ) * 2 ^ (q.log2 - n) ≤ |q.val| := two_pow_mul_grid n q.log2 ▸ Scaled.le_abs_val h
  have hhigh : |q.val| ≤ ((2 ^ (n + 1) : Int) : ℚ) * 2 ^ (q.log2 - n) := by
    refine (Scaled.abs_val_lt h).le.trans_eq ?_
    rw [← two_pow_mul_grid (n + 1)]
    push_cast
    ring_nf
  have hpos : (0 : Int) < 2 ^ n := by positivity
  rw [Scaled.roundSig_num]
  zify
  rcases lt_or_gt_of_ne h with hneg | hnonneg
  · have hv : q.val < 0 := mul_neg_of_neg_of_pos (by exact_mod_cast hneg) hp
    rw [abs_of_neg hv] at hlow hhigh
    have h1 := Scaled.roundTo_le (q := q) (grid := q.log2 - n) (k := -2 ^ n) (by push_cast at hlow ⊢; linarith) rc
    have h2 := Scaled.le_roundTo (q := q) (grid := q.log2 - n) (k := -2 ^ (n + 1)) (by push_cast at hhigh ⊢; linarith) rc
    rw [abs_of_neg (by omega)]
    omega
  · have hv : 0 < q.val := mul_pos (by exact_mod_cast hnonneg) hp
    rw [abs_of_pos hv] at hlow hhigh
    have h1 := Scaled.le_roundTo hlow rc
    have h2 := Scaled.roundTo_le hhigh rc
    rw [abs_of_pos (by omega)]
    omega

/-- Rounding to `n + 1` bits keeps the binade or carries into the next. -/
theorem Scaled.roundSig_log2 {q : Scaled} (h : q.num ≠ 0) (n : Nat) (rc : Rounding) :
    q.log2 ≤ (q.roundSig (n + 1) rc).1.log2 ∧ (q.roundSig (n + 1) rc).1.log2 ≤ q.log2 + 1 := by
  obtain ⟨hlow, hhigh, -⟩ := Scaled.roundSig_bounds h n rc
  have hm : (q.roundSig (n + 1) rc).1.num.natAbs ≠ 0 := (Nat.two_pow_pos n |>.trans_le hlow).ne'
  have h1 := (Nat.le_log2 hm).2 hlow
  have h2 := (Nat.log2_lt hm).2 (hhigh.trans_lt (Nat.pow_lt_pow_right (by norm_num) (Nat.lt_succ_self (n + 1))))
  have hlog : (q.roundSig (n + 1) rc).1.log2 = ((q.roundSig (n + 1) rc).1.num.natAbs.log2 : Int) + (q.log2 - n) := by
    rw [← q.roundSig_exp n rc]
    rfl
  omega

/-- A value rounded to the digits of a format fits the format, if its exponent does. -/
theorem Fmt.fits_roundSig {f : Fmt} {q : Scaled} (h : q.num ≠ 0) (rc : Rounding)
    (hlow : f.emin ≤ (q.roundSig (f.fbits + 1) rc).1.log2)
    (hhigh : (q.roundSig (f.fbits + 1) rc).1.log2 + f.bias < f.expMax) : f.Fits (q.roundSig (f.fbits + 1) rc).1 :=
  ⟨hlow, hhigh, two_pow_log2_dvd (Scaled.roundSig_bounds h f.fbits rc).2.1⟩

/-! ### The precision flag -/

theorem precisionIff_inexact {b : Bool} {r q : ℚ} (h : b = true ↔ r ≠ q) : PrecisionIff (.inexact b) r q := by
  cases b with
  | true => exact .inl ⟨rfl, h.1 rfl⟩
  | false => exact .inr ⟨rfl, not_not.1 fun hne => Bool.false_ne_true (h.2 hne)⟩

end Sys2Proof.Machine
end

section
/-! The conversions from an integer: `I32toF64` (R150) and `I32toF32` (R151). -/

namespace Sys2Proof.Machine

/-- The magnitude of a doubleword is at most `2^31`. -/
theorem natAbs_toInt_le (x : BitVec 32) : x.toInt.natAbs ≤ 2 ^ 31 := by
  have := x.le_toInt
  have := x.toInt_lt
  omega

theorem log2_natAbs_toInt_le (x : BitVec 32) : x.toInt.natAbs.log2 ≤ 31 :=
  log2_le_of_lt_two_pow ((natAbs_toInt_le x).trans_lt (by norm_num))

/-- An integer is a scaled integer of exponent 0. -/
theorem Scaled.val_ofInt (n : Int) : (Scaled.mk n 0).val = n := by
  simp [Scaled.val]

theorem Scaled.log2_ofInt (n : Int) : (Scaled.mk n 0).log2 = n.natAbs.log2 := by
  simp [Scaled.log2]

/-- Every doubleword fits double precision. -/
theorem fits_toInt (x : BitVec 32) : f64.Fits (Scaled.mk x.toInt 0) := by
  have hlog := log2_natAbs_toInt_le x
  refine ⟨?_, ?_, two_pow_log2_dvd ((natAbs_toInt_le x).trans (by decide))⟩
  · rw [Scaled.log2_ofInt, show f64.emin = -1022 from rfl]
    omega
  · rw [Scaled.log2_ofInt, show f64.bias = 1023 from rfl, show f64.expMax = 2047 from rfl]
    omega

/-- The fraction field of a magnitude of 53 bits is the magnitude without its top bit. -/
theorem ofNat_sub_top_bit {m : Nat} (h : 2 ^ 52 ≤ m) :
    BitVec.ofNat 52 (m - 2 ^ 52) = (BitVec.ofNat 53 m).extractLsb' 0 52 := by
  apply BitVec.eq_of_toNat_eq
  simp only [BitVec.toNat_ofNat, BitVec.extractLsb'_toNat, Nat.shiftRight_zero]
  omega

/-- Settles O41: every doubleword fits double precision, so `Encode` is exact. -/
theorem integerToDoubleIsExact : Obligations.IntegerToDoubleIsExact := by
  intro x
  have hexact : IsF64 (i32ToF64 x).value (decide (x.toInt < 0)) x.toInt :=
    Scaled.val_ofInt x.toInt ▸ isF64_pack64 (Fmt.holds_encode (fits_toInt x) rfl)
  refine ⟨rfl, hexact, fun h => ?_, fun h e he => ?_⟩
  · simp only [i32ToF64, h]
    rfl
  · have hlog := log2_natAbs_toInt_le x
    rw [← he] at hlog
    have hm : x.toInt.natAbs ≠ 0 := Int.natAbs_ne_zero.2 h
    have hdiv : x.toInt.natAbs * 2 ^ 52 / 2 ^ e = x.toInt.natAbs * 2 ^ (52 - e) := by
      rw [Nat.mul_div_assoc _ (pow_dvd_pow 2 (by omega)), Nat.pow_div (by omega) (by norm_num)]
    have htop : 2 ^ 52 ≤ x.toInt.natAbs * 2 ^ (52 - e) := by
      calc 2 ^ 52 = 2 ^ e * 2 ^ (52 - e) := by rw [← pow_add, Nat.add_sub_cancel' (by omega)]
        _ ≤ x.toInt.natAbs * 2 ^ (52 - e) := Nat.mul_le_mul_right _ (he ▸ Nat.log2_self_le hm)
    refine ⟨hlog, ?_⟩
    rw [i32ToF64, Fmt.encode_normal _ hm (fits_toInt x).low, ← he, ← ofNat_sub_top_bit htop, ← hdiv]
    rfl

/-- A nonzero doubleword rounded to 24 bits fits single precision. -/
theorem fits_roundSig_toInt {x : BitVec 32} (h : x.toInt ≠ 0) (rc : Rounding) :
    f32.Fits ((Scaled.mk x.toInt 0).roundSig 24 rc).1 := by
  have hlog := log2_natAbs_toInt_le x
  obtain ⟨hlow, hhigh⟩ := Scaled.roundSig_log2 (q := ⟨x.toInt, 0⟩) h 23 rc
  rw [Scaled.log2_ofInt] at hlow hhigh
  refine Fmt.fits_roundSig h rc ?_ ?_
  · rw [show f32.emin = -126 from rfl, show f32.fbits = 23 from rfl]
    omega
  · rw [show f32.bias = 127 from rfl, show f32.expMax = 255 from rfl, show f32.fbits = 23 from rfl]
    omega

theorem sigGrid_ofInt {n : Int} (h : n ≠ 0) : sigGrid 24 n = 2 ^ ((n.natAbs.log2 : Int) - 23) := by
  rw [← Scaled.log2_ofInt, Scaled.log2_eq h, Scaled.val_ofInt, sigGrid]
  congr 1
  push_cast
  ring

/-- An integer of at most 24 bits is on the grid of `RoundSig`. -/
theorem exists_mul_sigGrid {n : Int} (h : n ≠ 0) (hle : n.natAbs ≤ 2 ^ 24) : ∃ k : Int, (n : ℚ) = k * sigGrid 24 n := by
  obtain ⟨k, hk⟩ : (2 ^ n.natAbs.log2 : Int) ∣ n * 2 ^ 23 := by
    rw [← Int.natAbs_dvd_natAbs, Int.natAbs_mul, Int.natAbs_pow, Int.natAbs_pow]
    exact two_pow_log2_dvd hle
  refine ⟨k, ?_⟩
  have hkq : (n : ℚ) * 2 ^ 23 = 2 ^ n.natAbs.log2 * k := by exact_mod_cast hk
  rw [sigGrid_ofInt h, zpow_sub₀ (by norm_num), zpow_natCast, zpow_ofNat, mul_div_assoc', eq_div_iff (by norm_num), hkq,
    mul_comm]

/-- Settles O42: a nonzero doubleword rounded to 24 bits fits single precision, and its grid divides `2^31`. -/
theorem integerToSingleIsCorrectlyRounded : Obligations.IntegerToSingleIsCorrectlyRounded := by
  intro rc x
  refine ⟨fun h => if_pos h, fun h => ?_⟩
  obtain ⟨hround, hflag⟩ := Scaled.roundSig_spec (q := ⟨x.toInt, 0⟩) h 24 rc
  obtain ⟨-, -, hsign⟩ := Scaled.roundSig_bounds (q := ⟨x.toInt, 0⟩) h 23 rc
  rw [Scaled.val_ofInt] at hround hflag
  have hgrid : (0 : ℚ) < sigGrid 24 x.toInt := by unfold sigGrid; positivity
  refine ⟨_, hround, ?_, ?_, ?_, fun hle => ?_⟩
  · have hlog := log2_natAbs_toInt_le x
    have htop : ((2 ^ (54 - x.toInt.natAbs.log2) : Int) : ℚ) * sigGrid 24 x.toInt = 2 ^ 31 := by
      rw [sigGrid_ofInt h, show (x.toInt.natAbs.log2 : Int) - 23 = 31 - (54 - x.toInt.natAbs.log2 : Nat) by omega,
        two_pow_mul_grid]
      norm_num
    have hle : |(x.toInt : ℚ)| ≤ 2 ^ 31 := by
      rw [← Int.cast_abs, Int.abs_eq_natAbs]
      exact_mod_cast natAbs_toInt_le x
    exact (hround.abs_le_of_abs_le hgrid (hle.trans_eq htop.symm)).trans_eq htop
  · rw [i32ToF32, if_neg h]
    exact isF32_pack32 (Fmt.holds_encode (fits_roundSig_toInt h rc) (by simp only [hsign]))
  · rw [i32ToF32, if_neg h]
    exact precisionIff_inexact hflag
  · obtain ⟨k, hk⟩ := exists_mul_sigGrid h hle
    exact hround.eq_of_eq hgrid hk

end Sys2Proof.Machine
end

section
/-! The conversions to an integer: `F64toI32`, `F64toI64` and `F32toI32` (R152 to R154). -/

namespace Sys2Proof.Machine

/-- A NaN or an infinity gives the indefinite integer and `{I}`. -/
theorem toIntConv_of_not_finite {f : Fmt} {u : Unpacked} (h : finiteClass (f.classify u) = false) (w : Nat) (rc : Rounding)
    (daz : Bool) : toIntConv f w rc daz u = { value := indefinite w, flags := .onlyInvalid } := by
  unfold toIntConv
  cases hc : f.classify u with
  | infinity | signalling | quiet => rfl
  | zero | denormal | normal => rw [hc] at h; exact absurd h (by decide)

/-- A denormal under DAZ counts as 0. -/
theorem toIntConv_of_daz {f : Fmt} {u : Unpacked} (h : f.classify u = .denormal) (w : Nat) (rc : Rounding) :
    toIntConv f w rc true u = { value := 0#w, flags := .none } := by
  simp [toIntConv, h]

/-- Any other value is rounded, and the rounded value tested against the range of the width. -/
theorem toIntConv_of_finite {f : Fmt} {u : Unpacked} {daz : Bool} (h : finiteClass (f.classify u) = true)
    (hdaz : f.classify u = .denormal → daz = false) (w : Nat) (rc : Rounding) :
    toIntConv f w rc daz u =
      if (2 : Int) ^ (w - 1) ≤ ((f.value u).roundInt rc).1 ∨ ((f.value u).roundInt rc).1 < -(2 : Int) ^ (w - 1) then
        { value := indefinite w, flags := .onlyInvalid }
      else { value := BitVec.ofInt w ((f.value u).roundInt rc).1, flags := .inexact ((f.value u).roundInt rc).2 } := by
  unfold toIntConv
  cases hc : f.classify u with
  | zero | normal => rfl
  | denormal => simp [hdaz hc]
  | infinity | signalling | quiet => rw [hc] at h; exact absurd h (by decide)

/-- `roundInt` picks the integer that R143 picks for the exact value, and says whether it differs (R144). -/
theorem roundInt_spec (f : Fmt) (u : Unpacked) (rc : Rounding) :
    Rounds rc 1 (f.val u) (((f.value u).roundInt rc).1 : Int) ∧
    (((f.value u).roundInt rc).2 = true ↔ (((f.value u).roundInt rc).1 : ℚ) ≠ f.val u) := by
  have h := (f.value u).roundTo_spec 0 rc
  rwa [zpow_zero, mul_one, Fmt.val_value] at h

theorem intConversion_toIntConv (f : Fmt) {w : Nat} (hw : 0 < w) (rc : Rounding) (daz : Bool) (u : Unpacked) :
    IntConversion f w rc daz u (toIntConv f w rc daz u) := by
  obtain ⟨hround, hflag⟩ := roundInt_spec f u rc
  refine ⟨fun h => toIntConv_of_not_finite h w rc daz, fun h hdaz => hdaz ▸ toIntConv_of_daz h w rc, fun h hdaz => ?_⟩
  rw [toIntConv_of_finite h hdaz]
  refine ⟨_, hround, fun hout => if_pos hout, fun hlow hhigh => ?_⟩
  rw [if_neg (not_or.2 ⟨not_le.2 hhigh, not_lt.2 hlow⟩)]
  exact ⟨BitVec.toInt_ofInt_eq_self hw hlow hhigh, precisionIff_inexact hflag⟩

/-- Settles O43: the three functions are one, at their format and width. -/
theorem floatToIntegerMatchesTheReference : Obligations.FloatToIntegerMatchesTheReference := fun rc daz =>
  ⟨fun b => intConversion_toIntConv f64 (by decide) rc daz (unpack64 b),
    fun b => intConversion_toIntConv f64 (by decide) rc daz (unpack64 b),
    fun b => intConversion_toIntConv f32 (by decide) rc daz (unpack32 b)⟩

end Sys2Proof.Machine
end

section
/-! The widening `F32toF64` (R156). -/

namespace Sys2Proof.Machine

/-! ### The classes (R141) -/

theorem Fmt.classify_eq_denormal_iff {f : Fmt} {u : Unpacked} : f.classify u = .denormal ↔ u.exp = 0 ∧ u.frac ≠ 0 := by
  unfold Fmt.classify
  split_ifs <;> simp_all

theorem Fmt.classify_eq_normal_iff {f : Fmt} {u : Unpacked} : f.classify u = .normal ↔ u.exp ≠ 0 ∧ u.exp ≠ f.expMax := by
  unfold Fmt.classify
  split_ifs <;> simp_all

/-- The top bit of a quiet NaN's fraction is set. -/
theorem Fmt.quiet_bit {f : Fmt} {u : Unpacked} (h : f.classify u = .quiet) : u.frac / 2 ^ (f.fbits - 1) ≠ 0 := by
  unfold Fmt.classify at h
  split_ifs at h
  assumption

theorem unpack32_exp_lt (b : BitVec 32) : (unpack32 b).exp < 2 ^ 8 := (b.extractLsb' 23 8).isLt

theorem unpack32_frac_lt (b : BitVec 32) : (unpack32 b).frac < 2 ^ 23 := (b.extractLsb' 0 23).isLt

/-! ### The machine's value of a bit string -/

theorem Fmt.value_exp (f : Fmt) (u : Unpacked) :
    (f.value u).exp = if u.exp = 0 then f.emin - f.fbits else (u.exp : Int) - f.bias - f.fbits := rfl

theorem Fmt.natAbs_num_value (f : Fmt) (u : Unpacked) :
    (f.value u).num.natAbs = if u.exp = 0 then u.frac else 2 ^ f.fbits + u.frac := by
  unfold Fmt.value
  cases u.sign with
  | false => exact Int.natAbs_natCast _
  | true => exact (Int.natAbs_neg _).trans (Int.natAbs_natCast _)

theorem Fmt.num_value (f : Fmt) (u : Unpacked) :
    (f.value u).num = if u.sign then -((f.value u).num.natAbs : Int) else (f.value u).num.natAbs := by
  rw [Fmt.natAbs_num_value]
  rfl

/-- The sign of a nonzero value is the sign bit. -/
theorem Fmt.sign_eq_decide_num_neg {f : Fmt} {u : Unpacked} (h : u.exp ≠ 0 ∨ u.frac ≠ 0) :
    u.sign = decide ((f.value u).num < 0) := by
  have hm : (f.value u).num.natAbs ≠ 0 := by
    have := Nat.two_pow_pos f.fbits
    rw [Fmt.natAbs_num_value]
    split_ifs <;> omega
  have hnum := Fmt.num_value f u
  cases hs : u.sign with
  | false =>
    simp only [hs, Bool.false_eq_true, if_false] at hnum
    exact (decide_eq_false (by omega)).symm
  | true =>
    simp only [hs, if_true] at hnum
    exact (decide_eq_true (by omega)).symm

/-- Every finite single-precision value fits double precision. -/
theorem fits_value_unpack32 {b : BitVec 32} (h : (unpack32 b).exp ≠ f32.expMax) : f64.Fits (f32.value (unpack32 b)) := by
  have hexp := unpack32_exp_lt b
  have hm : (f32.value (unpack32 b)).num.natAbs < 2 ^ 24 := by
    have := unpack32_frac_lt b
    rw [Fmt.natAbs_num_value, show f32.fbits = 23 from rfl]
    split_ifs <;> omega
  have hlog : (f32.value (unpack32 b)).num.natAbs.log2 ≤ 23 := log2_le_of_lt_two_pow hm
  have hvexp : -149 ≤ (f32.value (unpack32 b)).exp ∧ (f32.value (unpack32 b)).exp ≤ 104 := by
    rw [show f32.expMax = 255 from rfl] at h
    rw [Fmt.value_exp, show f32.emin = -126 from rfl, show f32.fbits = 23 from rfl, show f32.bias = 127 from rfl]
    split_ifs <;> omega
  refine ⟨?_, ?_, two_pow_log2_dvd (hm.le.trans (by decide))⟩
  · rw [Scaled.log2, show f64.emin = -1022 from rfl]
    omega
  · rw [Scaled.log2, show f64.bias = 1023 from rfl, show f64.expMax = 2047 from rfl]
    omega

/-! ### The bits of the result -/

/-- A fraction of 23 bits moved to the top of one of 52. -/
theorem pack64_widened (s : Bool) (e : Nat) (x : BitVec 23) :
    pack64 { sign := s, exp := e, frac := x.toNat * 2 ^ 29 } = BitVec.ofBool s ++ BitVec.ofNat 11 e ++ x ++ 0#29 := by
  have := x.isLt
  apply BitVec.eq_of_toNat_eq
  simp only [pack64, toNat_append_eq_add, BitVec.toNat_ofNat]
  omega

/-- The same for a NaN whose quiet bit is set. -/
theorem pack64_quieted (s : Bool) (e : Nat) (y : BitVec 22) :
    pack64 { sign := s, exp := e, frac := 2 ^ 51 + y.toNat * 2 ^ 29 } =
      BitVec.ofBool s ++ BitVec.ofNat 11 e ++ 1#1 ++ y ++ 0#29 := by
  have := y.isLt
  apply BitVec.eq_of_toNat_eq
  simp only [pack64, toNat_append_eq_add, BitVec.toNat_ofNat]
  omega

theorem pack64_zero (s : Bool) : pack64 { sign := s, exp := 0, frac := 0 } = BitVec.ofBool s ++ 0#63 := by
  cases s <;> rfl

/-- The fraction without its quiet bit. -/
theorem toNat_extractLsb'_22 (b : BitVec 32) : (b.extractLsb' 0 22).toNat = (unpack32 b).frac % 2 ^ 22 := by
  simp only [unpack32, BitVec.extractLsb'_toNat, Nat.shiftRight_zero]
  omega

/-- The bits of a normal value, widened. -/
theorem pack64_encode_normal {b : BitVec 32} (h : f32.classify (unpack32 b) = .normal) :
    pack64 (f64.encode (unpack32 b).sign (f32.value (unpack32 b)).num.natAbs (f32.value (unpack32 b)).exp) =
      BitVec.ofBool (b.getLsbD 31) ++ BitVec.ofNat 11 ((b.extractLsb' 23 8).toNat + 896) ++ b.extractLsb' 0 23 ++ 0#29 := by
  obtain ⟨he, hmax⟩ := Fmt.classify_eq_normal_iff.1 h
  have hfrac := unpack32_frac_lt b
  have hm : (f32.value (unpack32 b)).num.natAbs = 2 ^ 23 + (unpack32 b).frac := by
    rw [Fmt.natAbs_num_value, if_neg he]
    rfl
  have hlog : (2 ^ 23 + (unpack32 b).frac).log2 = 23 := (Nat.log2_eq_iff (by omega)).2 ⟨by omega, by omega⟩
  have hexp : (f32.value (unpack32 b)).exp = ((unpack32 b).exp : Int) - 127 - 23 := by
    rw [Fmt.value_exp, if_neg he]
    rfl
  have hfield : ((23 : Nat) + ((unpack32 b).exp - 127 - 23) + 1023 : Int).toNat = (b.extractLsb' 23 8).toNat + 896 := by
    simp only [unpack32]
    omega
  have hmove : (2 ^ 23 + (unpack32 b).frac) * 2 ^ 52 / 2 ^ 23 - 2 ^ 52 = (b.extractLsb' 0 23).toNat * 2 ^ 29 := by
    simp only [unpack32]
    omega
  have hlow := (fits_value_unpack32 hmax).low
  rw [Scaled.log2, hm, hexp, hlog] at hlow
  rw [hm, hexp, Fmt.encode_normal _ (by omega) (hlog.symm ▸ hlow), hlog, show (f64.bias : Int) = 1023 from rfl,
    show f64.fbits = 52 from rfl, hfield, hmove, pack64_widened]
  rfl

/-! ### The statement -/

/-- A denormal or normal value widened keeps its sign and its exact value. -/
theorem isF64_widened {b : BitVec 32} (hmax : (unpack32 b).exp ≠ f32.expMax)
    (h : (unpack32 b).exp ≠ 0 ∨ (unpack32 b).frac ≠ 0) :
    IsF64 (pack64 (f64.encode (unpack32 b).sign (f32.value (unpack32 b)).num.natAbs (f32.value (unpack32 b)).exp))
      (b.getLsbD 31) (f32.val (unpack32 b)) :=
  Fmt.val_value f32 (unpack32 b) ▸ isF64_pack64 (Fmt.holds_encode (fits_value_unpack32 hmax) (Fmt.sign_eq_decide_num_neg h))

/-- Settles O45, class by class: every finite single-precision value fits double precision, and a fraction is moved to the
top. -/
theorem singleToDoubleIsExact : Obligations.SingleToDoubleIsExact := by
  rintro daz b s rfl
  refine ⟨fun h => ?_, fun h => ?_, fun h => ?_, fun h => ?_, fun h hdaz => ?_, fun h => ?_⟩
  · simp only [f32ToF64, h]
    rfl
  · have hquiet := Fmt.quiet_bit h
    have hfrac := unpack32_frac_lt b
    have hmove : 2 ^ 51 + (unpack32 b).frac % 2 ^ 22 * 2 ^ 29 = (b.extractLsb' 0 23).toNat * 2 ^ 29 := by
      simp only [unpack32, show f32.fbits = 23 from rfl] at hquiet hfrac ⊢
      omega
    simp only [f32ToF64, h, hmove, pack64_widened]
    rfl
  · simp only [f32ToF64, h, ← toNat_extractLsb'_22, pack64_quieted]
    rfl
  · rcases h with h | ⟨h, hdaz⟩
    · simp only [f32ToF64, h, pack64_zero]
      rfl
    · simp only [f32ToF64, h, hdaz, if_true, pack64_zero]
      rfl
  · obtain ⟨hexp, hfrac⟩ := Fmt.classify_eq_denormal_iff.1 h
    simp only [f32ToF64, h, hdaz, Bool.false_eq_true, if_false, and_true]
    exact isF64_widened (hexp ▸ by decide) (.inr hfrac)
  · obtain ⟨hexp, hmax⟩ := Fmt.classify_eq_normal_iff.1 h
    have hvalue : f32ToF64 daz b = { value := pack64 (f64.encode (unpack32 b).sign (f32.value (unpack32 b)).num.natAbs
        (f32.value (unpack32 b)).exp), flags := .none } := by
      simp only [f32ToF64, h]
    refine ⟨?_, ?_⟩
    · rw [hvalue]
      exact isF64_widened hmax (.inl hexp)
    · rw [hvalue, pack64_encode_normal h]

end Sys2Proof.Machine
end

section
/-! The flags that each primitive can raise (R173), and those of a tiny value narrowed (R155). -/

namespace Sys2Proof.Machine

/-! ### The conversions other than the narrowing -/

theorem FpFlags.inexact_cases (b : Bool) : FpFlags.inexact b = .none ∨ FpFlags.inexact b = .inexact true := by
  cases b with
  | false => exact .inl rfl
  | true => exact .inr rfl

theorem i32ToF32_flags (rc : Rounding) (x : BitVec 32) :
    (i32ToF32 rc x).flags = .none ∨ (i32ToF32 rc x).flags = .inexact true := by
  unfold i32ToF32
  split
  · exact .inl rfl
  · exact FpFlags.inexact_cases _

theorem toIntConv_flags (f : Fmt) (w : Nat) (rc : Rounding) (daz : Bool) (u : Unpacked) :
    (toIntConv f w rc daz u).flags = .none ∨ (toIntConv f w rc daz u).flags = .onlyInvalid ∨
      (toIntConv f w rc daz u).flags = .inexact true := by
  cases hfin : finiteClass (f.classify u) with
  | false => exact .inr (.inl (by rw [toIntConv_of_not_finite hfin]))
  | true =>
    by_cases hdaz : f.classify u = .denormal ∧ daz = true
    · obtain ⟨hden, rfl⟩ := hdaz
      exact .inl (by rw [toIntConv_of_daz hden])
    · rw [toIntConv_of_finite hfin fun hden => Bool.eq_false_iff.2 fun h => hdaz ⟨hden, h⟩]
      split
      · exact .inr (.inl rfl)
      · exact (FpFlags.inexact_cases _).imp_right .inr

theorem f32ToF64_flags (daz : Bool) (b : BitVec 32) :
    (f32ToF64 daz b).flags = .none ∨ (f32ToF64 daz b).flags = .onlyInvalid ∨
      (f32ToF64 daz b).flags = { FpFlags.none with denormal := true } := by
  cases hc : f32.classify (unpack32 b) with
  | infinity | quiet | zero | normal => exact .inl (by simp only [f32ToF64, hc])
  | signalling => exact .inr (.inl (by simp only [f32ToF64, hc]))
  | denormal =>
    cases daz with
    | true => exact .inl (by simp only [f32ToF64, hc, if_true])
    | false => exact .inr (.inr (by simp only [f32ToF64, hc, Bool.false_eq_true, if_false]))

/-! ### The narrowing -/

/-- The flags that narrowing a nonzero value can raise: `O` with `P` and without `U`, a masked `U` with `P`, no `I` and of itself
no `D`. -/
structure NarrowingFlags (um : Bool) (g : FpFlags) : Prop where
  invalid : g.invalid = false
  denormal : g.denormal = false
  overflow : g.overflow = true → g.precision = true ∧ g.underflow = false
  underflow : um = true → g.underflow = true → g.precision = true

theorem narrowingFlags_none (um : Bool) : NarrowingFlags um .none :=
  ⟨rfl, rfl, fun h => absurd h Bool.false_ne_true, fun _ h => absurd h Bool.false_ne_true⟩

theorem f32OfValue_flags (rc : Rounding) (fz um s : Bool) (q : Scaled) :
    NarrowingFlags um (f32OfValue rc fz um s q).flags := by
  unfold f32OfValue f32Tiny
  simp only
  split_ifs with _ _ hum
  · exact ⟨rfl, rfl, fun _ => ⟨rfl, rfl⟩, fun _ _ => rfl⟩
  · exact ⟨rfl, rfl, fun h => absurd h Bool.false_ne_true, fun _ h => absurd h Bool.false_ne_true⟩
  · exact ⟨rfl, rfl, fun h => absurd h Bool.false_ne_true, fun h => absurd h (by simpa using hum)⟩
  · exact ⟨rfl, rfl, fun h => absurd h Bool.false_ne_true, fun _ _ => rfl⟩
  · exact ⟨rfl, rfl, fun h => absurd h Bool.false_ne_true, fun _ h => h⟩

/-- A nonzero value below the step of the grid is not on the grid. -/
theorem Scaled.roundTo_inexact_of_log2_lt {q : Scaled} {grid : Int} (h0 : q.num ≠ 0) (h : q.log2 < grid) (rc : Rounding) :
    (q.roundTo grid rc).2 = true := by
  have hg : (0 : ℚ) < 2 ^ grid := by positivity
  have hlt : |q.val| < 2 ^ grid := (Scaled.abs_val_lt h0).trans_le (zpow_le_zpow_right₀ (by norm_num) (by omega))
  refine (q.roundTo_spec grid rc).2.2 fun heq => Scaled.val_ne_zero h0 ?_
  rw [← heq, abs_mul, abs_of_pos hg, mul_lt_iff_lt_one_left hg] at hlt
  have hz : (q.roundTo grid rc).1 = 0 := Int.abs_lt_one_iff.1 (by exact_mod_cast hlt)
  rw [← heq, hz, Int.cast_zero, zero_mul]

/-- A nonzero value below the least single-precision denormal is tiny and inexact: `U` and `P` (R155 step 6 (c)). -/
theorem f32OfValue_flags_of_log2_lt {q : Scaled} (h0 : q.num ≠ 0) (h : q.log2 < -149) (rc : Rounding) (fz um s : Bool) :
    (f32OfValue rc fz um s q).flags = { FpFlags.none with underflow := true, precision := true } := by
  have hhigh : (q.roundSig 24 rc).1.log2 ≤ q.log2 + 1 := (Scaled.roundSig_log2 h0 23 rc).2
  have hoverflow : ¬ 128 ≤ (q.roundSig 24 rc).1.log2 := by omega
  have htiny : ¬ -126 ≤ (q.roundSig 24 rc).1.log2 := by omega
  simp only [f32OfValue, hoverflow, htiny, if_false, f32Tiny, Scaled.roundTo_inexact_of_log2_lt h0 h]
  split_ifs <;> rfl

/-- A double-precision denormal is nonzero and far below the least single-precision denormal. -/
theorem log2_value_denormal {b : BitVec 64} (h : f64.classify (unpack64 b) = .denormal) :
    (f64.value (unpack64 b)).num ≠ 0 ∧ (f64.value (unpack64 b)).log2 < -149 := by
  obtain ⟨hexp, hfrac⟩ := Fmt.classify_eq_denormal_iff.1 h
  have hm : (f64.value (unpack64 b)).num.natAbs = (unpack64 b).frac := by rw [Fmt.natAbs_num_value, if_pos hexp]
  have hlog : (unpack64 b).frac.log2 < 52 := (Nat.log2_lt hfrac).2 (b.extractLsb' 0 52).isLt
  refine ⟨Int.natAbs_ne_zero.1 (hm ▸ hfrac), ?_⟩
  rw [Scaled.log2, hm, Fmt.value_exp, if_pos hexp, show f64.emin = -1022 from rfl, show f64.fbits = 52 from rfl]
  omega

/-- A denormal that DAZ does not hide is noted, tiny and inexact. -/
theorem f64ToF32_flags_of_denormal {b : BitVec 64} (h : f64.classify (unpack64 b) = .denormal) (rc : Rounding) (fz um : Bool) :
    (f64ToF32 rc false fz um b).flags = { FpFlags.none with denormal := true, underflow := true, precision := true } := by
  obtain ⟨hnum, hlog⟩ := log2_value_denormal h
  simp only [f64ToF32, h, Bool.false_eq_true, if_false, f32OfValue_flags_of_log2_lt hnum hlog]

theorem f64ToF32_flags_of_not_denormal {daz : Bool} {b : BitVec 64}
    (h : ¬ (f64.classify (unpack64 b) = .denormal ∧ daz = false)) (rc : Rounding) (fz um : Bool) :
    (f64ToF32 rc daz fz um b).flags = .onlyInvalid ∨ NarrowingFlags um (f64ToF32 rc daz fz um b).flags := by
  cases hc : f64.classify (unpack64 b) with
  | signalling => exact .inl (by simp only [f64ToF32, hc])
  | infinity | quiet | zero => exact .inr (by simp only [f64ToF32, hc, narrowingFlags_none])
  | normal => exact .inr (by simp only [f64ToF32, hc, f32OfValue_flags])
  | denormal =>
    have hdaz : daz = true := by_contra fun hne => h ⟨hc, Bool.eq_false_iff.2 hne⟩
    exact .inr (by simp only [f64ToF32, hc, hdaz, if_true, narrowingFlags_none])

/-! ### The statement -/

/-- Settles O46: what each primitive can raise, said by its own lemma; a double-precision denormal raises `D`, `U` and `P`. -/
theorem possibleFlagsOfEachPrimitive : Obligations.PossibleFlagsOfEachPrimitive := by
  refine ⟨i32ToF32_flags, fun rc daz b c => ⟨toIntConv_flags .., toIntConv_flags .., toIntConv_flags .., f32ToF64_flags ..⟩,
    fun rc daz fz um b => ?_⟩
  by_cases h : f64.classify (unpack64 b) = .denormal ∧ daz = false
  · obtain ⟨hden, rfl⟩ := h
    simp [f64ToF32_flags_of_denormal hden, hden, FpFlags.none]
  · simp only [h, iff_false]
    rcases f64ToF32_flags_of_not_denormal h rc fz um with hg | ⟨hinvalid, hdenormal, hoverflow, hunderflow⟩
    · simp [hg, FpFlags.onlyInvalid]
    · simp only [hinvalid, hdenormal]
      exact ⟨nofun, hoverflow, hunderflow, nofun, nofun⟩

end Sys2Proof.Machine
end

section
/-! The faults of `60_exceptions.md`: those that a load can raise (step 6 of R263), `#NM` (R266), the state that a fault leaves
(R262) and the vectors and codes of R261. -/

namespace Sys2Proof.Machine

/-! ### The faults of a load (step 6 of R263) -/

theorem segmentFault_cases (g : Seg) : segmentFault g = .stackSegment ∨ segmentFault g = .generalProtection := by
  unfold segmentFault
  split <;> simp

theorem firstPageFault_eq_some {s : State} {l : List (Word × Answer)} {f : Fault} (h : firstPageFault s l = some f) :
    ∃ code a, f = .pageFault code a := by
  induction l with
  | nil => cases h
  | cons x l ih =>
    obtain ⟨a, _ | ⟨p, r⟩ | _⟩ := x
    · exact ih h
    · exact ⟨_, _, (Option.some.inj h).symm⟩
    · exact ih h

/-- The faults that a load can raise (R66, R68, R72, R73). -/
theorem loadFault_cases {s : State} {g : Seg} {a : Word} {n : Nat} {al : Bool} {f : Fault}
    (h : loadFault s g a n al = some f) :
    f = .stackSegment ∨ f = .generalProtection ∨ (∃ code b, f = .pageFault code b) ∨ f = .alignmentCheck := by
  have outside (hf : some (segmentFault g) = some f) : f = .stackSegment ∨ f = .generalProtection :=
    Option.some.inj hf ▸ segmentFault_cases g
  unfold loadFault at h
  split at h
  · exact (outside h).imp_right .inl
  split at h
  · exact (outside h).imp_right .inl
  split at h
  · exact .inr (.inl (Option.some.inj h).symm)
  split at h
  · rename_i hpage
    exact .inr (.inr (.inl (firstPageFault_eq_some (hpage.trans h))))
  split at h
  · exact .inr (.inr (.inr (Option.some.inj h).symm))
  · cases h

/-! ### `#NM` among the admission checks (R266) -/

/-- With no `#UD` condition of R264 or R267, `CR0.TS` alone decides the checks of a legacy form. -/
theorem State.admitLegacy_of_enabled {s : State} {feature : Bool} (hm : s.mode.modelled = true)
    (h : s.em = false ∧ s.osfxsr = true ∧ feature = true) :
    s.admitLegacy feature = if s.ts then some (.fault .deviceNotAvailable) else none := by
  obtain ⟨hem, hfx, hft⟩ := h
  simp [State.admitLegacy, hem, hfx, hft, hm]

/-- With no `#UD` condition of R265, `CR0.TS` alone decides the checks of a VEX form. -/
theorem State.admitVex_of_enabled {s : State} (hm : s.mode.modelled = true)
    (h : s.osxsave = true ∧ s.xcr0.extractLsb' 1 2 = 3 ∧ s.params.avx = true) :
    s.admitVex = if s.ts then some (.fault .deviceNotAvailable) else none := by
  obtain ⟨hos, hxcr, hp⟩ := h
  have hprot : s.mode.unprotected = false := by
    obtain hmode | hmode := (Mode.modelled_iff _).1 hm <;> rw [hmode] <;> rfl
  simp [State.admitVex, hos, s.avxEnabled_iff.2 hxcr, hp, hm, hprot]

/-- The check of a pending x87 exception comes after `#NM` and never raises it (R263, R270). -/
theorem State.admitMmx_eq_deviceNotAvailable_iff {s : State} {feature transition : Bool} :
    s.admitMmx feature transition = some (.fault .deviceNotAvailable) ↔
      s.admitLegacy feature = some (.fault .deviceNotAvailable) := by
  constructor
  · intro h
    obtain h | h := State.admitMmx_eq_some h
    · exact h
    · split at h <;> cases h
  · intro h
    simp [State.admitMmx, h]

/-- The checks of an enabled form raise `#NM` exactly while `CR0.TS = 1`. -/
theorem admission_eq_deviceNotAvailable_iff {i : Instr} {s : State} (h : Enabled i s) :
    admission i s = some (.fault .deviceNotAvailable) ↔ s.ts = true := by
  obtain ⟨hmode, henable⟩ := h
  have hm := (Mode.modelled_iff _).2 hmode
  unfold admission
  split at henable
  · rename_i hv
    rw [if_pos hv, State.admitVex_of_enabled hm henable]
    simp
  · rename_i hv
    rw [if_neg hv, State.admitMmx_eq_deviceNotAvailable_iff, State.admitLegacy_of_enabled hm henable]
    simp

/-- A form that is not admitted stops with its admission stop, whatever its operands are (R263). -/
theorem exec_of_admission {i : Instr} {s : State} {x : Stop} (h : admission i s = some x) : exec i s = x.out := by
  obtain ⟨F⟩ := conversion i s.mode64
  rw [F.exec_eq s rfl]
  exact runConversion_of_admit h ..

/-- `#NM` comes from the admission checks alone: neither a load nor a conversion raises it. -/
theorem exec_eq_deviceNotAvailable_iff {i : Instr} {s : State} :
    exec i s = .fault .deviceNotAvailable ↔ admission i s = some (.fault .deviceNotAvailable) := by
  refine ⟨fun hx => ?_, exec_of_admission⟩
  by_contra hadm
  obtain ⟨m, -, hload⟩ := operandFault_of_exec hx hadm nofun nofun
  simpa using loadFault_cases hload

/-! ### The faulted state (R262) -/

/-- A fault touches CR2 and MXCSR at most. -/
theorem State.atFault_frame (s : State) (f : Fault) :
    ∃ cr2' mxcsr', s.atFault f = { s with cr2 := cr2', mxcsr := mxcsr' } := by
  cases f with
  | pageFault code a => exact ⟨a, s.mxcsr, rfl⟩
  | simdFloatingPoint | invalidOpcodeSimd => exact ⟨s.cr2, _, rfl⟩
  | _ => exact ⟨s.cr2, s.mxcsr, rfl⟩

@[simp] theorem State.atFault_pageFault_cr2 (s : State) (code : BitVec 32) (a : Word) :
    (s.atFault (.pageFault code a)).cr2 = a := rfl

theorem State.atFault_cr2_of_ne_pageFault {s : State} {f : Fault} (h : ∀ code a, f ≠ .pageFault code a) :
    (s.atFault f).cr2 = s.cr2 := by
  cases f with
  | pageFault code a => exact absurd rfl (h code a)
  | _ => rfl

theorem State.atFault_mxcsr_of_ne_simd {s : State} {f : Fault} (hx : f ≠ .simdFloatingPoint) (hu : f ≠ .invalidOpcodeSimd) :
    (s.atFault f).mxcsr = s.mxcsr := by
  cases f with
  | simdFloatingPoint => exact absurd rfl hx
  | invalidOpcodeSimd => exact absurd rfl hu
  | _ => rfl

/-- The controls and masks of MXCSR outlast every fault; an unmasked SIMD exception replaces the six flag bits alone. -/
theorem State.atFault_mxcsr_controls (s : State) (f : Fault) :
    (s.atFault f).mxcsr.extractLsb' 6 26 = s.mxcsr.extractLsb' 6 26 := by
  cases f with
  | simdFloatingPoint | invalidOpcodeSimd => exact BitVec.extractLsb'_append_eq_left
  | _ => rfl

theorem State.atFault_sameX87 (s : State) (f : Fault) : SameX87 s (s.atFault f) := by
  obtain ⟨cr2', mxcsr', h⟩ := s.atFault_frame f
  rw [h]
  exact ⟨fun _ _ => rfl, rfl, rfl, rfl⟩

theorem State.atFault_sameSystem (s : State) (f : Fault) :
    SameSystem { s with cr2 := (s.atFault f).cr2 } (s.atFault f) := by
  obtain ⟨cr2', mxcsr', h⟩ := s.atFault_frame f
  rw [h]
  exact ⟨rfl, rfl, rfl, rfl, rfl, rfl, rfl, rfl, rfl, rfl, rfl, rfl, rfl, fun _ => rfl⟩

/-! ### The page-fault code (R261) -/

theorem pageFaultCode_bits (p u r f : Bool) :
    (pageFaultCode p u r f).getLsbD 0 = p ∧ (pageFaultCode p u r f).getLsbD 1 = false ∧
    (pageFaultCode p u r f).getLsbD 2 = u ∧ (pageFaultCode p u r f).getLsbD 3 = r ∧
    (pageFaultCode p u r f).getLsbD 4 = f ∧ (pageFaultCode p u r f).extractLsb' 5 27 = 0 := by
  revert p u r f
  decide

/-! ### The statements -/

/-- Settles O25: only the admission checks raise `#NM`, and for an enabled form they do so exactly while `CR0.TS = 1`. -/
theorem taskSwitchedRaisesDeviceNotAvailable : Obligations.TaskSwitchedRaisesDeviceNotAvailable :=
  fun _ _ h => exec_eq_deviceNotAvailable_iff.trans (admission_eq_deviceNotAvailable_iff h)

/-- Settles O31: a fault touches CR2 and MXCSR at most, and each of the two as its own lemma says. -/
theorem faultsChangeNothingElse : Obligations.FaultsChangeNothingElse := by
  intro s f
  obtain ⟨cr2', mxcsr', h⟩ := s.atFault_frame f
  refine ⟨by rw [h], by rw [h], s.atFault_sameX87 f, s.atFault_pc f, by rw [h], s.atFault_sameSystem f, ?_,
    State.atFault_cr2_of_ne_pageFault, State.atFault_mxcsr_of_ne_simd, s.atFault_mxcsr_controls f⟩
  rintro code a rfl
  exact s.atFault_pageFault_cr2 code a

/-- Settles O32: the tables of R261, the bits of the page-fault code, and CR2 and `pc` in the faulted state. -/
theorem faultVectorsAndErrorCodes : Obligations.FaultVectorsAndErrorCodes :=
  ⟨⟨rfl, rfl, rfl, rfl, rfl, fun _ _ => rfl, rfl, rfl, rfl⟩, ⟨rfl, rfl, rfl, rfl, rfl, fun _ _ => rfl, rfl, rfl, rfl⟩,
    pageFaultCode_bits, State.atFault_pageFault_cr2, State.atFault_pc⟩

end Sys2Proof.Machine
end

section
/-! The state after reset and after INIT (`70_reset_and_hazards.md`): the registers' values (R305), and `#UD` for every form
while the enable bits of CR4 are off (R306). -/

namespace Sys2Proof.Machine

/-! ### `#UD` among the admission checks (R264, R265, R267) -/

/-- `CR4.OSFXSR = 0` alone stops a form with an MMX operand, before `#NM` and a pending x87 exception are looked at (R263). -/
theorem State.admitMmx_of_osfxsr_eq_false {s : State} (h : s.osfxsr = false) (feature transition : Bool) :
    s.admitMmx feature transition = some (.fault .invalidOpcode) := by
  simp [State.admitMmx, State.admitLegacy, h]

/-- `CR4.OSXSAVE = 0` alone stops a VEX form. -/
theorem State.admitVex_of_osxsave_eq_false {s : State} (h : s.osxsave = false) :
    s.admitVex = some (.fault .invalidOpcode) := by
  simp [State.admitVex, h]

/-- `CR4.OSFXSR` gates the legacy forms and `CR4.OSXSAVE` the VEX forms: with both off no form passes its checks. -/
theorem admission_of_osfxsr_osxsave_eq_false {s : State} (hfx : s.osfxsr = false) (hos : s.osxsave = false) (i : Instr) :
    admission i s = some (.fault .invalidOpcode) := by
  unfold admission
  split
  case isTrue => exact State.admitVex_of_osxsave_eq_false hos
  case isFalse => exact State.admitMmx_of_osfxsr_eq_false hfx ..

/-! ### The state after reset (R305, R306) -/

@[simp] theorem State.reset_osfxsr : State.reset.osfxsr = false := rfl
@[simp] theorem State.reset_osxsave : State.reset.osxsave = false := rfl

theorem State.reset_ymm_getElem (r : VecReg) : State.reset.ymm[r] = 0 := Vector.getElem_replicate _

theorem State.reset_x87_getElem (r : MmxReg) : State.reset.x87[r] = 0 := Vector.getElem_replicate _

/-- An MMX register is the low part of its x87 data register (R24). -/
theorem State.reset_mm (r : MmxReg) : State.reset.mm r = 0 := by
  rw [State.mm, State.reset_x87_getElem]
  rfl

/-- EDX, register 2, is the one general register that reset does not clear. -/
theorem State.reset_gpr_getElem {r : GenReg} (h : r ≠ 2) : State.reset.gpr[r] = 0 := by
  have hne : (2 : Nat) ≠ r := fun hr => h (Fin.ext hr.symm)
  calc State.reset.gpr[r]
    _ = (Vector.replicate 16 0#64)[r] := Vector.getElem_set_ne (by decide) r.isLt hne
    _ = 0 := Vector.getElem_replicate _

/-! ### The state after INIT (R305) -/

theorem initReset_sameX87 (s : State) : SameX87 s (initReset s) where
  data _ _ := rfl
  top := rfl
  tag := rfl
  pending := rfl

/-! ### The statements -/

/-- Settles O33: reset clears CR4, and with OSFXSR and OSXSAVE off the admission checks of every form end in `#UD`. -/
theorem everyFormIsInvalidAfterReset : Obligations.EveryFormIsInvalidAfterReset :=
  ⟨rfl, rfl, rfl, rfl, rfl, fun i =>
    exec_of_admission (admission_of_osfxsr_osxsave_eq_false State.reset_osfxsr State.reset_osxsave i)⟩

/-- Settles O59: the registers after reset, file by file, and what INIT keeps. -/
theorem resetAndInitLeaveTheStatedValues : Obligations.ResetAndInitLeaveTheStatedValues := by
  refine ⟨rfl, State.reset_ymm_getElem, State.reset_x87_getElem, State.reset_mm, rfl, rfl, rfl, rfl, rfl, ?csLinear, rfl, rfl,
    fun _ => State.reset_gpr_getElem, rfl, rfl, fun s => ⟨initReset_mxcsr s, ?vectors, initReset_sameX87 s⟩⟩
  case csLinear => decide
  case vectors => exact fun r => by rw [initReset_ymm]

end Sys2Proof.Machine
end

section
/-! What every step keeps: the invariant of a run, the system state, the registers that are no destination; and the exact
conversions, which MXCSR does not touch (R41). -/

namespace Sys2Proof.Machine

/-! ### Memory and MXCSR under a completed instruction -/

/-- No form writes memory: its list of entries is the same, not only the bytes read from it (R12). -/
theorem mem_of_exec {i : Instr} {s t : State} (h : exec i s = .next t) : t.mem = s.mem := by
  have hx : exec i s = .next { t with mem := s.mem } := (exec_withMem fun _ _ _ _ => rfl).trans (congrArg _ h)
  rw [Host.Outcome.next.inj (h.symm.trans hx)]

/-- An OR with a flag set leaves the reserved bits of MXCSR (R36, R171). -/
theorem reserved_or_flags (m : BitVec 32) (f : FpFlags) :
    (m ||| f.bits.setWidth 32).extractLsb' 16 16 = m.extractLsb' 16 16 := by
  apply BitVec.eq_of_getLsbD_eq
  intro k hk
  simp [hk, BitVec.getLsbD_of_ge f.bits (16 + k) (by omega)]

/-- Outside 64-bit mode the next instruction pointer fits 32 bits (R33, R34). -/
theorem State.toNat_nextPc_lt {s : State} (h : s.mode = .bits32) (n : Nat) : (s.nextPc n).toNat < 2 ^ 32 := by
  have h64 : s.mode64 = false := by simp [State.mode64, h]
  rw [State.toNat_nextPc, h64]
  exact Nat.mod_lt _ (by decide)

/-- A form completes only where its admission checks raise nothing. -/
theorem admitted_of_exec {i : Instr} {s t : State} (h : exec i s = .next t) : Admitted i s := by
  obtain ⟨F⟩ := conversion i s.mode64
  rw [F.exec_eq s rfl] at h
  exact admission_eq_none_iff.1 (runConversion_eq_next_iff.1 h).1

/-- An admitted instruction stands in one of the two modes of R300. -/
theorem Admitted.modelled {i : Instr} {s : State} (h : Admitted i s) : s.mode.modelled = true := by
  have hr := h.ready
  rw [Mode.modelled_iff]
  unfold Ready at hr
  split at hr <;> exact hr.mode

/-! ### MXCSR and the exact conversions (R41) -/

/-- The outcome with MXCSR of its next state replaced. -/
def outcomeWithMxcsr (m : BitVec 32) : Out → Out
  | .next t => .next { t with mxcsr := m }
  | .fault f => .fault f
  | .refused r => .refused r

theorem outcomeWithMxcsr_out (m : BitVec 32) (x : Stop) : outcomeWithMxcsr m x.out = x.out := by
  cases x <;> rfl

/-- What is read from memory does not depend on MXCSR, which decides neither the address nor a fault of the load. -/
theorem loadOperand_withMxcsr {w : Nat} (al : Bool) (seg : Option Seg) (a32 : Bool) (len : Nat) (o : Mem) (s : State)
    (m : BitVec 32) :
    loadOperand w al seg a32 len o { s with mxcsr := m } = loadOperand w al seg a32 len o s := by
  have ha : Mem.linear o seg a32 len { s with mxcsr := m } = Mem.linear o seg a32 len s := linear_congr rfl rfl rfl rfl rfl
  have hp : ∀ l, firstPageFault { s with mxcsr := m } l = firstPageFault s l := firstPageFault_congr rfl
  unfold loadOperand memRead loadFault
  rw [ha, hp]
  rfl

theorem legacySource_withMxcsr {w : Nat} (al : Bool) (e : LegacyEnc) (len : Nat) (src : RM 16) (s : State) (m : BitVec 32) :
    legacySource w al e len src { s with mxcsr := m } = legacySource w al e len src s := by
  cases src with
  | reg r => rfl
  | mem o => exact loadOperand_withMxcsr ..

theorem vexSource_withMxcsr {w : Nat} (e : VexEnc) (len : Nat) (src : RM 16) (s : State) (m : BitVec 32) :
    vexSource w e len src { s with mxcsr := m } = vexSource w e len src s := by
  cases src with
  | reg r => rfl
  | mem o => exact loadOperand_withMxcsr ..

theorem mmxSource_withMxcsr (e : LegacyEnc) (len : Nat) (src : RM 8) (s : State) (m : BitVec 32) :
    mmxSource e len src { s with mxcsr := m } = mmxSource e len src s := by
  cases src with
  | reg r => rfl
  | mem o => exact loadOperand_withMxcsr ..

/-- A conversion that raises no flag carries another MXCSR through. -/
theorem runConversion_withMxcsr {b w : Nat} {check : Option Stop} {source : Except Stop (BitVec w)}
    {convert : BitVec w → List (Conv b)} {write : State → List (Conv b) → State} {len : Nat} {s : State} {m : BitVec 32}
    (hf : ∀ v, unionFlags (convert v) = .none)
    (hw : ∀ t rs, write { t with mxcsr := m } rs = { write t rs with mxcsr := m }) :
    runConversion check source convert write len { s with mxcsr := m } =
      outcomeWithMxcsr m (runConversion check source convert write len s) := by
  have unflagged : ∀ (t : State) (v : BitVec w), t.simdStop (unionFlags (convert v)) = none := by
    intro t v
    rw [hf, State.simdStop_eq_none_iff]
    exact ⟨nofun, nofun, nofun, nofun, nofun⟩
  cases check with
  | some x => exact (outcomeWithMxcsr_out m x).symm
  | none =>
    cases source with
    | error x => exact (outcomeWithMxcsr_out m x).symm
    | ok v =>
      rw [runConversion_eq_next_iff.2 ⟨rfl, v, rfl, unflagged s v, rfl⟩,
        runConversion_eq_next_iff.2 ⟨rfl, v, rfl, unflagged _ v, rfl⟩, hf, State.raiseFlags_none, State.raiseFlags_none, hw]
      rfl

theorem unionFlags_i32ToF64 {w : Nat} (n : Nat) (v : BitVec w) : unionFlags (convLanes n i32ToF64 v) = .none := by
  have all : ∀ l : List Nat, unionFlags (l.map fun k => i32ToF64 (lane 32 k v)) = .none := by
    intro l
    induction l with
    | nil => rfl
    | cons k l ih => rw [List.map_cons, unionFlags_cons, ih, FpFlags.union_none]; rfl
  exact all (List.range n)

/-- An exact conversion executes alike under another MXCSR. -/
theorem exec_withMxcsr {i : Instr} (h : exactForm i = true) (s : State) (m : BitVec 32) :
    exec i { s with mxcsr := m } = outcomeWithMxcsr m (exec i s) := by
  cases i with
  | cvtdq2pd e d src =>
    simp only [exec, execCvtdq2pd, legacySource_withMxcsr]
    exact runConversion_withMxcsr (unionFlags_i32ToF64 2) fun _ _ => rfl
  | vcvtdq2pd128 e d src =>
    simp only [exec, execVcvtdq2pd128, vexSource_withMxcsr]
    exact runConversion_withMxcsr (unionFlags_i32ToF64 2) fun _ _ => rfl
  | vcvtdq2pd256 e d src =>
    simp only [exec, execVcvtdq2pd256, vexSource_withMxcsr]
    exact runConversion_withMxcsr (unionFlags_i32ToF64 4) fun _ _ => rfl
  | cvtpi2pd e d src =>
    simp only [exec, execCvtpi2pd, mmxSource_withMxcsr]
    exact runConversion_withMxcsr (unionFlags_i32ToF64 2) fun _ _ => by cases src <;> rfl
  | _ => cases h

/-! ### The statements -/

/-- Settles O13: a completed instruction keeps memory as it is, ORs flags into MXCSR and moves `pc` modulo the address width. -/
theorem stepKeepsTheInvariant : Obligations.StepKeepsTheInvariant := by
  intro s t hs h
  obtain ⟨-, i, rest, -, hx⟩ := step_eq_next h
  obtain ⟨f, hc⟩ := exec_completed hx
  have commit := hc.committed
  refine ⟨?mem, ?mxcsr, fun hmode => ?pc⟩
  case mem => rw [mem_of_exec hx]; exact hs.mem
  case mxcsr => rw [commit.mxcsr, reserved_or_flags]; exact hs.mxcsr
  case pc => rw [commit.pc]; exact State.toNat_nextPc_lt (commit.sys.mode ▸ hmode) _

/-- Settles O14: both states are in real-address mode, and INIT keeps memory and MXCSR. -/
theorem resetMeetsTheInvariant : Obligations.ResetMeetsTheInvariant :=
  ⟨⟨reset_mem_wf, by decide, nofun⟩, fun _ hs => ⟨hs.mem, hs.mxcsr, nofun⟩⟩

/-- Settles O1, from the scan of the prefixes and the parts read back after it. -/
theorem decodeOfEncodeIsTheInstruction : Obligations.DecodeOfEncodeIsTheInstruction :=
  fun _ _ rest h => decode_encode h rest

/-- Settles O11. -/
theorem stepRunsTheDecodedInstruction : Obligations.StepRunsTheDecodedInstruction :=
  fun _ _ _ => step_of_decodeAt_ok

/-- Settles O12: the fetch window begins with the encoding, and the decoder reads it back. -/
theorem stepRunsTheEncodedInstructionAtPc : Obligations.StepRunsTheEncodedInstructionAtPc :=
  fun _ _ => step_of_encode

/-- Settles O15, from the commit that every form shares. -/
theorem stepChangesNoSystemStateAndNoMemory : Obligations.StepChangesNoSystemStateAndNoMemory := by
  intro s t h
  obtain ⟨-, i, rest, -, hx⟩ := step_eq_next h
  obtain ⟨f, hc⟩ := exec_completed hx
  exact hc.committed.sys

/-- Settles O17: the four forms raise no flag, and neither their source nor their result looks at MXCSR. -/
theorem exactConversionsIgnoreMxcsr : Obligations.ExactConversionsIgnoreMxcsr := by
  intro i s m hi
  have hx := exec_withMxcsr hi s m
  refine ⟨fun t ht => ⟨?_, hx.trans (congrArg _ ht)⟩, fun f hf => hx.trans (congrArg _ hf),
    fun r hr => hx.trans (congrArg _ hr)⟩
  have hs : exec i s = .next { t with mxcsr := s.mxcsr } := (exec_withMxcsr hi s s.mxcsr).trans (congrArg _ ht)
  rw [Host.Outcome.next.inj (ht.symm.trans hs)]

/-- Settles O18: each of the five ways in which a form completes writes one register. -/
theorem onlyTheDestinationRegisterIsWritten : Obligations.OnlyTheDestinationRegisterIsWritten := by
  intro i s t h
  obtain ⟨f, hc⟩ := exec_completed h
  cases hc with
  | legacyVector w _ c _ | vexVector w _ _ c => rw [w.gpr, w.vec, w.mmx]; exact ⟨c.gpr, c.ymm, c.x87.data⟩
  | mmxSource w _ c _ => rw [w.gpr, w.vec, w.mmx]; exact ⟨c.gpr, c.ymm, c.x87⟩
  | mmxDestination w _ c => rw [w.gpr, w.vec, w.mmx]; exact ⟨c.gpr, c.ymm, c.x87⟩
  | gprDestination w _ c => rw [w.gpr, w.vec, w.mmx]; exact ⟨c.gpr, c.ymm, c.x87.data⟩

/-- Settles O34: `step` asks for the mode first, and no form is admitted outside the two modes. -/
theorem otherModesAreRefused : Obligations.OtherModesAreRefused := by
  refine ⟨fun s hm => ⟨by simp [step, hm], fun i t h => ?_⟩, Mode.modelled_iff, rfl⟩
  exact Bool.false_ne_true (hm.symm.trans (admitted_of_exec h).modelled)

end Sys2Proof.Machine
end

section
/-! The results of the instructions (`41_cvtdq2pd_cvtdq2ps.md` to `45_cvtsd2si.md`): each way to write a destination once, then
the forms. -/

namespace Sys2Proof.Machine

/-! ### Each way to write a destination -/

section
variable {b w n : Nat} {s : State} {f : BitVec b → Conv w} {m len : Nat} {v : BitVec m} {F : FpFlags}
  {source : Except Stop (BitVec m)}

/-- A legacy form with a vector destination keeps bits 255:128 (R22 (a)). -/
theorem completes_writeXmm {d : VecReg} {feature : Bool} {R : BitVec 128} (ha : LegacyReady s feature)
    (hs : source = .ok v) (hF : unionFlags (convLanes n f v) = F) (hR : packLanes 128 (convLanes n f v) = R) :
    Completes s (runConversion (s.admitLegacy feature) source (convLanes n f)
      (fun t rs => t.writeXmm d (packLanes 128 rs)) len s) F fun t =>
        t.ymm[d] = s.ymm[d].extractLsb' 128 128 ++ R ∧ VecCommit s t d F len := by
  refine runConversion_completes ((s.admitLegacy_eq_none_iff feature).2 ha) hs hF ⟨?_, vecCommit_writeXmm ..⟩
  simp [hR]

/-- A VEX form with a vector destination writes all of it (R22 (b)). -/
theorem completes_writeYmm {d : VecReg} {R : BitVec 256} (ha : VexReady s) (hs : source = .ok v)
    (hF : unionFlags (convLanes n f v) = F) (hR : packLanes 256 (convLanes n f v) = R) :
    Completes s (runConversion s.admitVex source (convLanes n f) (fun t rs => t.writeYmm d (packLanes 256 rs)) len s) F
      fun t => t.ymm[d] = R ∧ VecCommit s t d F len := by
  refine runConversion_completes (s.admitVex_eq_none_iff.2 ha) hs hF ⟨?_, vecCommit_writeYmm ..⟩
  simp [hR]

/-- The low part of an x87 data register just written is the MMX register's value (R24, R25). -/
theorem State.mm_writeMm (s : State) (d : MmxReg) (x : BitVec 64) : (s.writeMm d x).mm d = x := by
  simp only [State.mm, State.writeMm_x87, Fin.getElem_fin, Vector.getElem_set_self]
  exact BitVec.extractLsb'_append_eq_right

/-- A form with an MMX destination (R203, R236). -/
theorem completes_writeMm {d : MmxReg} {feature : Bool} {R : BitVec 64} (ha : LegacyReady s feature)
    (hp : s.x87Pending = false) (hs : source = .ok v) (hF : unionFlags (convLanes n f v) = F)
    (hR : packLanes 64 (convLanes n f v) = R) :
    Completes s (runConversion (s.admitMmx feature true) source (convLanes n f)
      (fun t rs => (t.writeMm d (packLanes 64 rs)).mmxTransition) len s) F fun t =>
        t.mm d = R ∧ MmxCommit s t d F len := by
  refine runConversion_completes ((s.admitMmx_eq_none_iff feature true).2 ⟨ha, fun _ => hp⟩) hs hF
    ⟨?_, mmxCommit_writeMm ..⟩
  exact (State.mm_writeMm ..).trans hR

/-- A zero-extended doubleword is its bits below 32 zeros. -/
theorem setWidth_eq_zero_append (x : BitVec 32) : x.setWidth 64 = 0#32 ++ x := by
  apply BitVec.eq_of_toNat_eq
  rw [toNat_append_eq_add, BitVec.toNat_setWidth, BitVec.toNat_ofNat]
  omega

/-- A 32-bit write of a general register, taken apart into halves (R31). -/
theorem State.gpr_writeGpr32 (s : State) (d : GenReg) (x : BitVec 32) :
    (s.writeGpr32 d x).gpr[d] = (if s.mode64 then 0#32 else s.gpr[d].extractLsb' 32 32) ++ x := by
  simp only [State.writeGpr32_gpr, Fin.getElem_fin, Vector.getElem_set_self]
  split
  · exact setWidth_eq_zero_append x
  · rfl

/-- A form that reads an MMX operand and performs the transition, with the low 128 bits written (R220). -/
theorem completes_writeXmm_transition {d : VecReg} {feature : Bool} {R : BitVec 128} (ha : LegacyReady s feature)
    (hp : s.x87Pending = false) (hs : source = .ok v) (hF : unionFlags (convLanes n f v) = F)
    (hR : packLanes 128 (convLanes n f v) = R) :
    Completes s (runConversion (s.admitMmx feature true) source (convLanes n f)
      (fun t rs => (t.writeXmm d (packLanes 128 rs)).mmxTransition) len s) F fun t =>
        t.ymm[d] = s.ymm[d].extractLsb' 128 128 ++ R ∧ MmxSourceCommit s t d F len := by
  refine runConversion_completes ((s.admitMmx_eq_none_iff feature true).2 ⟨ha, fun _ => hp⟩) hs hF
    ⟨?_, mmxSourceCommit_writeXmm ..⟩
  simp [hR]

/-- The same with the low 64 bits written (R221). -/
theorem completes_writeXmmLow_transition {d : VecReg} {feature : Bool} {R : BitVec 64} (ha : LegacyReady s feature)
    (hp : s.x87Pending = false) (hs : source = .ok v) (hF : unionFlags (convLanes n f v) = F)
    (hR : packLanes 64 (convLanes n f v) = R) :
    Completes s (runConversion (s.admitMmx feature true) source (convLanes n f)
      (fun t rs => (t.writeXmmLow d (packLanes 64 rs)).mmxTransition) len s) F fun t =>
        t.ymm[d] = s.ymm[d].extractLsb' 64 192 ++ R ∧ MmxSourceCommit s t d F len := by
  refine runConversion_completes ((s.admitMmx_eq_none_iff feature true).2 ⟨ha, fun _ => hp⟩) hs hF
    ⟨?_, mmxSourceCommit_writeXmmLow ..⟩
  simp [hR]

end

theorem lane_zero_self (v : BitVec 64) : lane 64 0 v = v := by
  simp [lane]

section
variable {s : State} {len : Nat} {v : BitVec 64} {source : Except Stop (BitVec 64)} {d : GenReg} {check : Option Stop}
  (ha : check = none) (hs : source = .ok v)
include ha hs

/-- A form with an `r32` destination (R31, R250, R252). -/
theorem completes_writeGpr32 (f : BitVec 64 → Conv 32) :
    Completes s (runConversion check source (convLanes 1 f) (fun t rs => t.writeGpr32 d (packLanes 32 rs)) len s)
      (f v).flags fun t =>
        t.gpr[d] = (if s.mode64 then 0#32 else s.gpr[d].extractLsb' 32 32) ++ (f v).value ∧
        GprCommit s t d (f v).flags len := by
  refine runConversion_completes ha hs (by simp [unionFlags_nil, lane_zero_self]) ⟨?_, gprCommit_writeGpr32 ..⟩
  rw [convLanes_one, packLanes_singleton, lane_zero_self]
  exact State.gpr_writeGpr32 ..

/-- Outside 64-bit mode a 32-bit write keeps the upper half, and an `r64` form is a 32-bit one (R31; log entry 19). -/
theorem completes_writeGpr32_narrow (h64 : s.mode64 = false) (f : BitVec 64 → Conv 32) :
    Completes s (runConversion check source (convLanes 1 f) (fun t rs => t.writeGpr32 d (packLanes 32 rs)) len s)
      (f v).flags fun t =>
        t.gpr[d] = s.gpr[d].extractLsb' 32 32 ++ (f v).value ∧ GprCommit s t d (f v).flags len := by
  simpa [h64] using completes_writeGpr32 (s := s) (len := len) (d := d) ha hs f

/-- A form with an `r64` destination (R31, R251, R253). -/
theorem completes_writeGpr64 (f : BitVec 64 → Conv 64) :
    Completes s (runConversion check source (convLanes 1 f) (fun t rs => t.writeGpr64 d (packLanes 64 rs)) len s)
      (f v).flags fun t => t.gpr[d] = (f v).value ∧ GprCommit s t d (f v).flags len := by
  refine runConversion_completes ha hs (by simp [unionFlags_nil, lane_zero_self]) ⟨?_, gprCommit_writeGpr64 ..⟩
  rw [convLanes_one, packLanes_singleton, lane_zero_self]
  simp

end

/-- A conversion without flags completes, whatever the masks are, and leaves MXCSR (R41). -/
theorem Completes.exact {s : State} {o : Out} {post : State → Prop} (h : Completes s o .none post) :
    ∃ t, o = .next t ∧ post t :=
  h.1 ⟨nofun, nofun, nofun, nofun, nofun⟩

theorem Committed.mxcsr_of_exact {s t : State} {n : Nat} (h : Committed s t .none n) : t.mxcsr = s.mxcsr := by
  rw [h.mxcsr, ← State.raiseFlags_mxcsr, State.raiseFlags_none]

/-- An exact form with a vector destination, its MXCSR said apart. -/
theorem exact_vector {s : State} {o : Out} {d : VecReg} {n : Nat} {R : BitVec 256}
    (h : Completes s o .none fun t => t.ymm[d] = R ∧ VecCommit s t d .none n) :
    ∃ t, o = .next t ∧ t.ymm[d] = R ∧ t.mxcsr = s.mxcsr ∧ VecCommit s t d .none n := by
  obtain ⟨t, ht, hR, hc⟩ := h.exact
  exact ⟨t, ht, hR, hc.commit.mxcsr_of_exact, hc⟩

/-! ### Packed results below zeros -/

theorem packLanes_zero_append {b m : Nat} {l : List (Conv b)} {R : BitVec m} (n : Nat) (h : packLanes m l = R)
    (hl : l.length * b ≤ m) : packLanes (n + m) l = 0#n ++ R :=
  h ▸ packLanes_zero_above l hl

section
variable {a w : Nat} (v : BitVec w)

theorem packLanes_128_results2 (f : BitVec a → Conv 32) : packLanes 128 (convLanes 2 f v) = 0#64 ++ results2 f v :=
  packLanes_zero_append 64 (packLanes_results2 f v) (by simp)

theorem packLanes_256_results2 (f : BitVec a → Conv 32) : packLanes 256 (convLanes 2 f v) = 0#192 ++ results2 f v :=
  packLanes_zero_append 192 (packLanes_results2 f v) (by simp)

theorem packLanes_256_results2_64 (f : BitVec a → Conv 64) : packLanes 256 (convLanes 2 f v) = 0#128 ++ results2 f v :=
  packLanes_zero_append 128 (packLanes_results2 f v) (by simp)

theorem packLanes_256_results4 (f : BitVec a → Conv 32) : packLanes 256 (convLanes 4 f v) = 0#128 ++ results4 f v :=
  packLanes_zero_append 128 (packLanes_results4 f v) (by simp)

end

/-! ### The statements -/

/-- Settles O49: the three forms are exact, so no mask matters. -/
theorem cvtdq2pdConvertsToDouble : Obligations.Cvtdq2pdConvertsToDouble :=
  ⟨fun _ _ _ _ v hr hs => exact_vector (completes_writeXmm hr hs (unionFlags_i32ToF64 2 v) (packLanes_results2 _ v)),
    fun _ _ _ _ v hr hs => exact_vector (completes_writeYmm hr hs (unionFlags_i32ToF64 2 v) (packLanes_256_results2_64 v _)),
    fun _ _ _ _ v hr hs => exact_vector (completes_writeYmm hr hs (unionFlags_i32ToF64 4 v) (packLanes_results4_64 _ v))⟩

/-- Settles O50, form by form: how the results are packed and their flags united. -/
theorem cvtdq2psConvertsToSingle : Obligations.Cvtdq2psConvertsToSingle :=
  ⟨fun _ _ _ _ v hr hs => completes_writeXmm hr hs (unionFlags_results4 _ v) (packLanes_results4 _ v),
    fun _ _ _ _ v hr hs => completes_writeYmm hr hs (unionFlags_results4 _ v) (packLanes_256_results4 v _),
    fun _ _ _ _ v hr hs => completes_writeYmm hr hs (unionFlags_results8 _ v) (packLanes_results8 _ v)⟩

/-- Settles O51, with zeros above the two or four narrow results. -/
theorem cvtpd2dqConvertsToInteger : Obligations.Cvtpd2dqConvertsToInteger :=
  ⟨fun _ _ _ _ v hr hs => completes_writeXmm hr hs (unionFlags_results2 _ v) (packLanes_128_results2 v _),
    fun _ _ _ _ v hr hs => completes_writeYmm hr hs (unionFlags_results2 _ v) (packLanes_256_results2 v _),
    fun _ _ _ _ v hr hs => completes_writeYmm hr hs (unionFlags_results4 _ v) (packLanes_256_results4 v _)⟩

/-- Settles O52, with zeros above the two or four narrow results. -/
theorem cvtpd2psConvertsToSingle : Obligations.Cvtpd2psConvertsToSingle :=
  ⟨fun _ _ _ _ v hr hs => completes_writeXmm hr hs (unionFlags_results2 _ v) (packLanes_128_results2 v _),
    fun _ _ _ _ v hr hs => completes_writeYmm hr hs (unionFlags_results2 _ v) (packLanes_256_results2 v _),
    fun _ _ _ _ v hr hs => completes_writeYmm hr hs (unionFlags_results4 _ v) (packLanes_256_results4 v _)⟩

/-- Settles O53, form by form: how the results are packed and their flags united. -/
theorem cvtps2dqConvertsToInteger : Obligations.Cvtps2dqConvertsToInteger :=
  ⟨fun _ _ _ _ v hr hs => completes_writeXmm hr hs (unionFlags_results4 _ v) (packLanes_results4 _ v),
    fun _ _ _ _ v hr hs => completes_writeYmm hr hs (unionFlags_results4 _ v) (packLanes_256_results4 v _),
    fun _ _ _ _ v hr hs => completes_writeYmm hr hs (unionFlags_results8 _ v) (packLanes_results8 _ v)⟩

/-- Settles O54, form by form: how the results are packed and their flags united. -/
theorem cvtps2pdConvertsToDouble : Obligations.Cvtps2pdConvertsToDouble :=
  ⟨fun _ _ _ _ v hr hs => completes_writeXmm hr hs (unionFlags_results2 _ v) (packLanes_results2 _ v),
    fun _ _ _ _ v hr hs => completes_writeYmm hr hs (unionFlags_results2 _ v) (packLanes_256_results2_64 v _),
    fun _ _ _ _ v hr hs => completes_writeYmm hr hs (unionFlags_results4 _ v) (packLanes_results4_64 _ v)⟩

/-- Settles O55: two forms with one way to write the destination. -/
theorem mmxDestinationFormsConvertToInteger : Obligations.MmxDestinationFormsConvertToInteger :=
  ⟨fun _ _ _ _ v hr hp hs => completes_writeMm hr hp hs (unionFlags_results2 _ v) (packLanes_results2 _ v),
    fun _ _ _ _ v hr hp hs => completes_writeMm hr hp hs (unionFlags_results2 _ v) (packLanes_results2 _ v)⟩

/-- Settles O56: the register form of CVTPI2PD and both forms of CVTPI2PS perform the transition, CVTPI2PD m64 is a plain
legacy form. -/
theorem mmxSourceFormsConvertToFloat : Obligations.MmxSourceFormsConvertToFloat := by
  refine ⟨fun e d r s hr hp => ?register, fun e d m s v hr hs => ?memory,
    fun e d src s v hr hp hs =>
      completes_writeXmmLow_transition hr hp hs (unionFlags_results2 _ v) (packLanes_results2 _ v)⟩
  case register =>
    obtain ⟨t, ht, hR, hc⟩ := (completes_writeXmm_transition (d := d) (len := (Instr.cvtpi2pd e d (.reg r)).len) hr hp
      (mmxSource_reg e (Instr.cvtpi2pd e d (.reg r)).len r s) (unionFlags_i32ToF64 2 _) (packLanes_results2 _ _)).exact
    exact ⟨t, ht, hR, hc.commit.mxcsr_of_exact, hc⟩
  case memory =>
    have h := exact_vector (completes_writeXmm (d := d) (len := (Instr.cvtpi2pd e d (.mem m)).len) hr hs
      (unionFlags_i32ToF64 2 v) (packLanes_results2 _ v))
    rwa [← State.admitMmx_false] at h

/-- Settles O57: outside 64-bit mode the `r64` forms write as the `r32` forms do. -/
theorem cvtsd2siConvertsToGeneralRegister : Obligations.Cvtsd2siConvertsToGeneralRegister := by
  have legacy {s : State} (hr : LegacyReady s s.params.sse2) := (s.admitLegacy_eq_none_iff s.params.sse2).2 hr
  have vex {s : State} (hr : VexReady s) := s.admitVex_eq_none_iff.2 hr
  have wide {s : State} (h : s.mode64 = true) {o o' : Out} : (if s.mode64 then o else o') = o := if_pos h
  have narrow {s : State} (h : s.mode64 = false) {o o' : Out} : (if s.mode64 then o else o') = o' := if_neg (by simp [h])
  refine ⟨fun e d src s v hr hs => completes_writeGpr32 (legacy hr) hs _, fun e d src s v hr h64 hs => ?_,
    fun e d src s v hr h64 hs => ?_, fun e d src s v hr hs => completes_writeGpr32 (vex hr) hs _,
    fun e d src s v hr h64 hs => ?_, fun e d src s v hr h64 hs => ?_⟩
  · rw [exec, execCvtsd2si64, wide h64]
    exact completes_writeGpr64 (legacy hr) hs _
  · rw [exec, execCvtsd2si64, narrow h64]
    exact completes_writeGpr32_narrow (legacy hr) hs h64 _
  · rw [exec, execVcvtsd2si64, wide h64]
    exact completes_writeGpr64 (vex hr) hs _
  · rw [exec, execVcvtsd2si64, narrow h64]
    exact completes_writeGpr32_narrow (vex hr) hs h64 _

/-- Settles O58: by the definitions of the sources and of `readOperand`. -/
theorem sourceIsTheNamedRegisterOrTheMemoryOperand : Obligations.SourceIsTheNamedRegisterOrTheMemoryOperand := by
  refine ⟨fun _ _ _ _ _ _ => rfl, fun _ _ _ _ _ => rfl, fun _ _ _ _ => rfl, fun _ _ _ _ => ?_, fun _ _ _ _ => ⟨rfl, rfl⟩,
    fun _ _ _ _ => ⟨rfl, rfl⟩, fun _ _ _ _ => ?_, fun _ _ _ _ => ⟨rfl, rfl⟩, fun _ _ _ _ => rfl⟩
  · exact ⟨rfl, rfl, rfl, rfl, rfl, rfl, rfl, rfl⟩
  · exact ⟨rfl, rfl, rfl, rfl, rfl, rfl, rfl, rfl, rfl, rfl, rfl, rfl⟩

end Sys2Proof.Machine
end

section
/-! The conditions of `60_exceptions.md` section 4 and 5 for the form as a whole: `#UD` (R264, R265, R267), `#MF` (R270), the
faults of a memory operand (R72, R73, R271) and completion without any of them. -/

namespace Sys2Proof.Machine

/-! ### Faults and refusals that the admission checks alone raise -/

/-- A fault that neither a load nor a conversion can raise comes from the admission checks. -/
theorem exec_eq_fault_iff_admission {i : Instr} {s : State} {f : Fault}
    (hload : ¬ (f = .stackSegment ∨ f = .generalProtection ∨ (∃ code b, f = .pageFault code b) ∨ f = .alignmentCheck))
    (hx : f ≠ .simdFloatingPoint) (hu : f ≠ .invalidOpcodeSimd) :
    exec i s = .fault f ↔ admission i s = some (.fault f) := by
  refine ⟨fun h => ?_, exec_of_admission⟩
  by_contra hadm
  obtain ⟨m, -, hf⟩ := operandFault_of_exec h hadm hx hu
  exact hload (loadFault_cases hf)

theorem exec_eq_invalidOpcode_iff {i : Instr} {s : State} :
    exec i s = .fault .invalidOpcode ↔ admission i s = some (.fault .invalidOpcode) :=
  exec_eq_fault_iff_admission (by simp) nofun nofun

theorem exec_eq_x87FloatingPoint_iff {i : Instr} {s : State} :
    exec i s = .fault .x87FloatingPoint ↔ admission i s = some (.fault .x87FloatingPoint) :=
  exec_eq_fault_iff_admission (by simp) nofun nofun

/-- An admitted form is never refused: its source answers a value or a fault, and its conversion completes or faults. -/
theorem exec_ne_refused {i : Instr} {s : State} (h : admission i s = none) (r : Refusal) : exec i s ≠ .refused r := by
  have ha := admission_eq_none_iff.1 h
  obtain ⟨F⟩ := conversion i s.mode64
  cases F.reads with
  | register _ read eq =>
    have hc := runConversion_completes (convert := F.convert s) (write := F.write) (len := i.len) (s := s)
      (post := fun _ => True) h (eq s) rfl trivial
    rw [← F.exec_eq s rfl] at hc
    rcases hc.next_or_simd with ⟨t, ht, -⟩ | hx | hx <;> simp [*]
  | @memory m operand =>
    cases hf : operandFault i m s with
    | some f => simp [exec_of_operandFault operand ha hf]
    | none => rcases exec_of_operandFault_eq_none operand ha hf with ⟨t, ht⟩ | hx | hx <;> simp [*]

theorem exec_eq_refused_iff {i : Instr} {s : State} {r : Refusal} :
    exec i s = .refused r ↔ admission i s = some (.refuse r) := by
  refine ⟨fun h => ?_, exec_of_admission⟩
  cases hadm : admission i s with
  | none => exact absurd h (exec_ne_refused hadm r)
  | some x =>
    rw [exec_of_admission hadm] at h
    cases x <;> cases h
    rfl

/-! ### `#UD` among the admission checks (R264, R265, R267) -/

theorem State.admitLegacy_eq_invalidOpcode_iff {s : State} {feature : Bool} :
    s.admitLegacy feature = some (.fault .invalidOpcode) ↔ s.em = true ∨ s.osfxsr = false ∨ feature = false := by
  unfold State.admitLegacy
  split
  case isTrue h => simpa [or_assoc] using h
  case isFalse h =>
    refine iff_of_false (fun hx => ?_) (by simpa [or_assoc] using h)
    split_ifs at hx <;> cases hx

theorem State.admitMmx_eq_invalidOpcode_iff {s : State} {feature transition : Bool} :
    s.admitMmx feature transition = some (.fault .invalidOpcode) ↔
      s.em = true ∨ s.osfxsr = false ∨ feature = false := by
  rw [← State.admitLegacy_eq_invalidOpcode_iff]
  constructor
  · intro h
    obtain h | h := State.admitMmx_eq_some h
    · exact h
    · split at h <;> cases h
  · intro h
    simp [State.admitMmx, h]

theorem Mode.unprotected_iff (m : Mode) : m.unprotected = true ↔ m = .realAddress ∨ m = .virtual8086 := by
  cases m <;> simp [Mode.unprotected]

theorem State.admitVex_eq_invalidOpcode_iff {s : State} :
    s.admitVex = some (.fault .invalidOpcode) ↔
      s.osxsave = false ∨ s.xcr0.extractLsb' 1 2 ≠ 3 ∨ s.params.avx = false ∨ s.mode = .realAddress ∨ s.mode = .virtual8086 := by
  rw [← Mode.unprotected_iff, Ne, ← s.avxEnabled_iff, Bool.not_eq_true]
  unfold State.admitVex
  split
  case isTrue h => simpa [or_assoc] using h
  case isFalse h =>
    refine iff_of_false (fun hx => ?_) (by simpa [or_assoc] using h)
    split_ifs at hx <;> cases hx

theorem admission_of_legacyShape {i : Instr} (h : vexShape i = false) (s : State) :
    admission i s = s.admitMmx (legacyFeature i s) (performsTransition i) := by
  simp [admission, h]

theorem admission_of_vexShape {i : Instr} (h : vexShape i = true) (s : State) : admission i s = s.admitVex := by
  simp [admission, h]

/-! ### A pending x87 exception (R270) -/

/-- A form that performs the transition has the legacy shape. -/
theorem vexShape_of_performsTransition {i : Instr} (h : performsTransition i = true) : vexShape i = false := by
  cases hv : vexShape i with
  | false => rfl
  | true => simp [performsTransition_of_vexShape hv] at h

theorem admission_of_pending {i : Instr} {s : State} (hr : Ready i s) (hp : performsTransition i = true)
    (hx : s.x87Pending = true) :
    admission i s = some (if s.ne then .fault .x87FloatingPoint else .refuse .x87ReportedExternally) := by
  have hv := vexShape_of_performsTransition hp
  have hl : s.admitLegacy (legacyFeature i s) = none := by
    rw [State.admitLegacy_eq_none_iff]
    simpa [Ready, hv] using hr
  simp [admission_of_legacyShape hv, hp, State.admitMmx, hl, hx]

/-- Without the transition, or without a pending exception, the checks stop for `#UD`, the mode or `#NM` alone. -/
theorem admission_eq_some_of_not_pending {i : Instr} {s : State} {x : Stop}
    (h : performsTransition i = false ∨ s.x87Pending = false) (hx : admission i s = some x) :
    x = .fault .invalidOpcode ∨ x = .refuse .modeOutOfScope ∨ x = .fault .deviceNotAvailable := by
  cases hv : vexShape i with
  | true => exact State.admitVex_eq_some (admission_of_vexShape hv s ▸ hx)
  | false =>
    refine State.admitLegacy_eq_some (s := s) (feature := legacyFeature i s) ?_
    rw [admission_of_legacyShape hv, State.admitMmx] at hx
    cases hl : s.admitLegacy (legacyFeature i s) with
    | some y => simpa [hl] using hx
    | none => rcases h with h | h <;> simp [hl, h] at hx

/-! ### When a load faults, and when it does not (R66, R68, R72, R73) -/

section
variable {s : State} {g : Seg} {a : Word} {n : Nat} {al : Bool}

/-- A non-canonical address is the first thing a load faults for in 64-bit mode (R72). -/
theorem loadFault_of_nonCanonical (h64 : s.mode64 = true) (h : canonical s.params.linearAddressBits a = false) :
    loadFault s g a n al = some (segmentFault g) := by
  simp [loadFault, h64, h]

/-- A byte outside its segment comes next (R73). -/
theorem loadFault_of_segmentFault (hc : s.mode64 = true → canonical s.params.linearAddressBits a = true) {k : Nat} (hk : k < n)
    (h : Admission.answer s.loadMap (byteAddress s.mode64 a k).toNat = .segmentFault) :
    loadFault s g a n al = some (segmentFault g) := by
  have hcan : ¬ (s.mode64 && !canonical s.params.linearAddressBits a) = true := by simpa using hc
  rw [loadFault, if_neg hcan, if_pos (anySegmentFault_loadAnswers.2 ⟨k, hk, h⟩)]

/-- Inside its segment and with the alignment it requires, a load ends as its pages and then the alignment check say. -/
theorem loadFault_of_inSegment (hc : s.mode64 = true → canonical s.params.linearAddressBits a = true)
    (hb : ∀ k < n, Admission.answer s.loadMap (byteAddress s.mode64 a k).toNat ≠ .segmentFault)
    (ha : al = true → a.toNat % 16 = 0) :
    loadFault s g a n al =
      (firstPageFault s (loadAnswers s a n)).or
        (if !al && alignmentChecked s a n then some .alignmentCheck else none) := by
  have hcan : ¬ (s.mode64 && !canonical s.params.linearAddressBits a) = true := by simpa using hc
  have hseg : ¬ anySegmentFault (loadAnswers s a n) = true := by
    rw [anySegmentFault_loadAnswers]
    rintro ⟨k, hk, hs⟩
    exact hb k hk hs
  have hal : ¬ (al && decide (a.toNat % 16 ≠ 0)) = true := by simpa using ha
  rw [loadFault, if_neg hcan, if_neg hseg, if_neg hal]
  cases firstPageFault s (loadAnswers s a n) <;> rfl

theorem firstPageFault_append {l : List (Word × Answer)} (h : firstPageFault s l = none) (l' : List (Word × Answer)) :
    firstPageFault s (l ++ l') = firstPageFault s l' := by
  induction l with
  | nil => rfl
  | cons x l ih =>
    obtain ⟨b, _ | _ | _⟩ := x
    · exact ih h
    · cases h
    · exact ih h

/-- The answers of a load from the byte `k` on follow those of the bytes before it. -/
theorem loadAnswers_split {k : Nat} (hk : k < n) :
    ∃ l, loadAnswers s a n = loadAnswers s a k ++
      (byteAddress s.mode64 a k, Admission.answer s.loadMap (byteAddress s.mode64 a k).toNat) :: l := by
  obtain ⟨m, rfl⟩ : ∃ m, n = k + (m + 1) := ⟨n - k - 1, by omega⟩
  simp [loadAnswers, List.range_add, List.range_succ_eq_map]

/-- The page fault of a load is that of the first byte which is not admitted (R73). -/
theorem firstPageFault_loadAnswers {k : Nat} {p r : Bool} (hk : k < n)
    (hb : ∀ j < k, Admission.answer s.loadMap (byteAddress s.mode64 a j).toNat = .granted)
    (h : Admission.answer s.loadMap (byteAddress s.mode64 a k).toNat = .pageFault p r) :
    firstPageFault s (loadAnswers s a n) =
      some (.pageFault (pageFaultCode p (decide (s.cpl = 3)) r false) (byteAddress s.mode64 a k)) := by
  obtain ⟨l, hl⟩ := loadAnswers_split (s := s) (a := a) hk
  rw [hl, firstPageFault_append (no_fault_answer_of_granted hb).2, h]
  rfl

end

/-- The low four bits of an address are its remainder by 16 (R66). -/
theorem toNat_mod_16_of_extractLsb' {a : Word} (h : a.extractLsb' 0 4 = 0) : a.toNat % 16 = 0 := by
  simpa using congrArg BitVec.toNat h

theorem alignmentChecked_eq_false {s : State} (h : ¬ (s.am = true ∧ s.ac = true ∧ s.cpl = 3)) (a : Word) (n : Nat) :
    alignmentChecked s a n = false := by
  rw [Bool.eq_false_iff]
  intro hc
  simp only [alignmentChecked, Bool.and_eq_true, decide_eq_true_eq] at hc
  obtain ⟨⟨⟨⟨ham, hac⟩, hcpl⟩, -⟩, -⟩ := hc
  exact h ⟨ham, hac, hcpl⟩

/-- With all six masks set no flag set faults (R39, R172). -/
theorem State.simdStop_of_all_masked {s : State} (h : s.mxcsr.extractLsb' 7 6 = 63) (f : FpFlags) : s.simdStop f = none := by
  simp [State.simdStop, State.unmasked, State.fpMasks, h]

/-- An admitted form whose source is read completes while all masks are set. -/
theorem exec_next_of_all_masked {i : Instr} {s : State} (ha : Admitted i s) (hm : s.mxcsr.extractLsb' 7 6 = 63)
    (hf : ∀ m, memoryOperand i = some m → operandFault i m s = none) : ∃ t, exec i s = .next t := by
  obtain ⟨F⟩ := conversion i s.mode64
  have hv : ∃ v, F.source s = .ok v := by
    cases F.reads with
    | register _ read eq => exact ⟨_, eq s⟩
    | memory operand eq => exact ⟨_, (eq s).trans ((readOperand_eq_ok_iff F.bytes).2 ⟨hf _ operand, rfl⟩)⟩
  obtain ⟨v, hv⟩ := hv
  rw [F.exec_eq s rfl]
  exact ⟨_, runConversion_eq_next_iff.2 ⟨admission_eq_none_iff.2 ha, v, hv, State.simdStop_of_all_masked hm _, rfl⟩⟩

/-! ### Canonical addresses and the segment of an operand (R72, R109) -/

/-- An arithmetic shift right repeats the top bit. -/
theorem getLsbD_sshiftRight_word (a : Word) (m i : Nat) (hi : i < 64) :
    (a.sshiftRight m).getLsbD i = if m + i < 64 then a.getLsbD (m + i) else a.getLsbD 63 := by
  rw [BitVec.getLsbD_sshiftRight]
  simp [hi, BitVec.msb_eq_getLsbD_last]

theorem canonical_iff (n : Nat) (a : Word) :
    canonical n a = true ↔ ∀ k, n - 1 ≤ k → k < 64 → a.getLsbD k = a.getLsbD 63 := by
  obtain ⟨m, hm⟩ : ∃ m, m = n - 1 := ⟨_, rfl⟩
  simp only [canonical, ← hm, Bool.or_eq_true, decide_eq_true_eq]
  constructor
  · intro h k hmk hk
    have bit : ∀ j, m ≤ j → j < 64 → (a.sshiftRight m).getLsbD (j - m) = a.getLsbD j := by
      intro j hmj hj
      rw [getLsbD_sshiftRight_word a m _ (by omega), if_pos (by omega), Nat.add_sub_cancel' hmj]
    rw [← bit k hmk hk, ← bit 63 (by omega) (by omega)]
    rcases h with h | h
    · simp [h]
    · rw [h, BitVec.getLsbD_allOnes, BitVec.getLsbD_allOnes]
      simp [show k - m < 64 by omega, show 63 - m < 64 by omega]
  · intro h
    have repeated : ∀ i < 64, (a.sshiftRight m).getLsbD i = a.getLsbD 63 := by
      intro i hi
      rw [getLsbD_sshiftRight_word a m i hi]
      split
      · exact h _ (Nat.le_add_right m i) ‹_›
      · rfl
    cases hs : a.getLsbD 63 with
    | false => exact .inl (BitVec.eq_of_getLsbD_eq fun i hi => by rw [repeated i hi, hs]; simp)
    | true => exact .inr (BitVec.eq_of_getLsbD_eq fun i hi => by rw [repeated i hi, hs, BitVec.getLsbD_allOnes]; simp [hi])

/-- The operand goes through SS by an override that counts, or by its base where none counts (R109, R121). -/
theorem segment_eq_ss_iff (m64 : Bool) (m : Mem) (g : Option Seg) :
    Mem.segment m64 m g = .ss ↔
      (if m64 then g ≠ some .fs ∧ g ≠ some .gs ∧ (Mem.base m = some 4 ∨ Mem.base m = some 5)
      else g = some .ss ∨ (g = none ∧ (Mem.base m = some 4 ∨ Mem.base m = some 5))) := by
  have hdefault : (if Mem.base m = some 4 ∨ Mem.base m = some 5 then Seg.ss else .ds) = .ss ↔
      Mem.base m = some 4 ∨ Mem.base m = some 5 := by
    split <;> simp [*]
  unfold Mem.segment
  cases m64 with
  | false =>
    rw [countedOverride_legacy]
    cases g with
    | none => simpa using hdefault
    | some g => simp
  | true =>
    rcases g with _ | g
    · simpa [countedOverride] using hdefault
    · cases g with
      | fs | gs => simp [countedOverride]
      | cs | ss | ds | es => simpa [countedOverride] using hdefault

/-! ### The statements -/

/-- Settles O22: with every mask set only the memory operand could still fault, and it does not. -/
theorem admittedInstructionCompletesUnderMasks : Obligations.AdmittedInstructionCompletesUnderMasks := by
  intro i s ha hmask hmem
  refine exec_next_of_all_masked ha hmask fun m hm => ?_
  obtain ⟨hin, hal, hgranted, hac⟩ := hmem m hm
  rw [operandFault, loadFault_of_inSegment hin.canonical hin.bytes fun h => toNat_mod_16_of_extractLsb' (hal h),
    (no_fault_answer_of_granted hgranted).2, alignmentChecked_eq_false hac]
  simp

/-- Settles O23: only the admission checks raise this `#UD`, and for a legacy form they do so under the three conditions. -/
theorem legacyFormsNeedTheirEnables : Obligations.LegacyFormsNeedTheirEnables := by
  intro i s hv
  have hx : exec i s = .fault .invalidOpcode ↔ s.em = true ∨ s.osfxsr = false ∨ legacyFeature i s = false := by
    rw [exec_eq_invalidOpcode_iff, admission_of_legacyShape hv, State.admitMmx_eq_invalidOpcode_iff]
  refine ⟨hx.2, fun ⟨_, henable⟩ h => ?_, fun _ => hx⟩
  rw [if_neg (by simp [hv])] at henable
  obtain ⟨hem, hfx, hft⟩ := henable
  simpa [hem, hfx, hft] using hx.1 h

/-- Settles O24: the same for a VEX form, with the conditions of R265. -/
theorem vexFormsNeedTheirEnables : Obligations.VexFormsNeedTheirEnables := by
  intro i s hv
  have hx := (exec_eq_invalidOpcode_iff (i := i) (s := s)).trans
    (admission_of_vexShape hv s ▸ State.admitVex_eq_invalidOpcode_iff)
  refine ⟨hx.2, fun ⟨hmode, henable⟩ h => ?_⟩
  rw [if_pos hv] at henable
  obtain ⟨hos, hxcr, hp⟩ := henable
  have hud := hx.1 h
  rcases hmode with hmode | hmode <;> simp [hos, hxcr, hp, hmode] at hud

/-- Settles O26: the check of a pending exception is the last of the admission checks, and only the transition asks for it. -/
theorem pendingX87ExceptionRaisesFloatingPointError : Obligations.PendingX87ExceptionRaisesFloatingPointError := by
  refine ⟨fun i s hr hp hx => ⟨fun hne => ?_, fun hne => ?_⟩, fun i s h => ⟨fun hx => ?_, fun hx => ?_⟩, fun _ => rfl⟩
  · exact exec_of_admission ((admission_of_pending hr hp hx).trans (by rw [hne]))
  · exact exec_of_admission ((admission_of_pending hr hp hx).trans (by rw [hne]))
  · simpa using admission_eq_some_of_not_pending h (exec_eq_x87FloatingPoint_iff.1 hx)
  · simpa using admission_eq_some_of_not_pending h (exec_eq_refused_iff.1 hx)

/-- Settles O28: the canonical check is the first of a load, and the segment decides which fault it is. -/
theorem nonCanonicalOperandRaisesSegmentFault : Obligations.NonCanonicalOperandRaisesSegmentFault :=
  ⟨fun _ _ _ hm ha h64 hc => exec_of_operandFault hm ha (loadFault_of_nonCanonical h64 hc),
    fun i m s => segment_eq_ss_iff s.mode64 m i.fields.seg, canonical_iff⟩

/-- Settles O29: a segment fault of any byte comes before a page fault, and the first refused byte decides the latter. -/
theorem refusedOperandByteFaults : Obligations.RefusedOperandByteFaults := by
  refine ⟨fun i m s k hm ha hc hk h => exec_of_operandFault hm ha (loadFault_of_segmentFault hc hk h),
    fun i m s k p r hm ha hin hal hk hb h => exec_of_operandFault hm ha ?_⟩
  rw [operandFault, loadFault_of_inSegment hin.canonical hin.bytes fun h => toNat_mod_16_of_extractLsb' (hal h),
    firstPageFault_loadAnswers hk hb h]
  rfl

end Sys2Proof.Machine
end

section
/-! `MemRead` and `MemWrite` byte by byte (`20_memory.md` R62, R64). -/

namespace Sys2Proof.Machine

/-! ### Byte addresses and byte order -/

/-- The address of byte `k` as a number (R62). -/
theorem toNat_byteAddress (m64 : Bool) (a : Word) (k : Nat) :
    (byteAddress m64 a k).toNat = (a.toNat + k) % (if m64 then 2 ^ 64 else 2 ^ 32) := by
  cases m64 with
  | true => simp [byteAddress]
  | false =>
    simp only [byteAddress, Bool.false_eq_true, if_false, BitVec.toNat_setWidth, BitVec.toNat_add, BitVec.toNat_ofNat]
    omega

/-- The bytes of an access shorter than the address space stand at distinct addresses. -/
theorem byteAddress_injective {m64 : Bool} {a : Word} {j k : Nat} (hj : j < 2 ^ 32) (hk : k < 2 ^ 32)
    (h : (byteAddress m64 a j).toNat = (byteAddress m64 a k).toNat) : j = k := by
  rw [toNat_byteAddress, toNat_byteAddress] at h
  split at h <;> omega

/-- Bit `i` of a little-endian value is bit `i % 8` of byte `i / 8` (R64). -/
theorem getLsbD_ofBytes (w : Nat) (l : List Byte) (i : Nat) :
    (ofBytes w l).getLsbD i = (decide (i < w) && (l.getD (i / 8) 0).getLsbD (i % 8)) := by
  induction l generalizing i with
  | nil => simp [ofBytes]
  | cons b t ih =>
    simp only [ofBytes, BitVec.getLsbD_or, BitVec.getLsbD_shiftLeft, BitVec.getLsbD_setWidth, ih]
    by_cases h : i < 8
    · simp [h, Nat.div_eq_of_lt h, Nat.mod_eq_of_lt h]
    · have hdiv : i / 8 = (i - 8) / 8 + 1 := by omega
      have hmod : (i - 8) % 8 = i % 8 := by omega
      have hhigh : b.getLsbD i = false := BitVec.getLsbD_of_ge b i (by omega)
      have hlow : i < w → i - 8 < w := by omega
      rw [hdiv, List.getD_cons_succ, hmod, hhigh]
      by_cases hi : i < w <;> simp [h, hi, hlow]

theorem getD_readBytes (m : Memory) (m64 : Bool) (a : Word) {k n : Nat} (h : k < n) :
    (readBytes m m64 a n).getD k 0 = m.read (byteAddress m64 a k).toNat := by
  simp [readBytes, List.getD, h]

/-- Bit `i` of what is read from memory, below the last whole byte. -/
theorem getLsbD_ofBytes_readBytes {w n i : Nat} (hi : i < w) (hn : i / 8 < n) (m : Memory) (m64 : Bool) (a : Word) :
    (ofBytes w (readBytes m m64 a n)).getLsbD i = (m.read (byteAddress m64 a (i / 8)).toNat).getLsbD (i % 8) := by
  rw [getLsbD_ofBytes, getD_readBytes m m64 a hn]
  simp [hi]

/-! ### What `memWrite` leaves in memory -/

/-- A write of bytes elsewhere leaves an address as it is. -/
theorem read_write_fold_of_ne {m : Memory} (hm : m.wf = true) (m64 : Bool) (a : Word) {l : List (Byte × Nat)} {x : Nat}
    (hx : ∀ bk ∈ l, x ≠ (byteAddress m64 a bk.2).toNat) :
    (l.foldl (fun m bk => m.write (byteAddress m64 a bk.2).toNat bk.1) m).read x = m.read x := by
  induction l generalizing m with
  | nil => rfl
  | cons bk l ih =>
    rw [List.foldl_cons, ih (Memory.write_wf hm (byteAddress m64 a bk.2).isLt bk.1)
      fun c hc => hx c (List.mem_cons_of_mem bk hc), Memory.read_write hm, if_neg (hx bk List.mem_cons_self)]

/-- The bytes of a value with their offsets (R64). -/
theorem zipIdx_toBytes {w : Nat} (v : BitVec w) :
    (toBytes v).zipIdx = (List.range (w / 8)).map fun k => (v.extractLsb' (8 * k) 8, k) := by
  apply List.ext_getElem
  · simp [toBytes]
  · intro k h1 h2
    simp [toBytes]

/-- The memory that `memWrite` answers. -/
def writtenMem {w : Nat} (m : Memory) (m64 : Bool) (a : Word) (v : BitVec w) : Memory :=
  (toBytes v).zipIdx.foldl (fun m bk => m.write (byteAddress m64 a bk.2).toNat bk.1) m

theorem memWrite_mem {w : Nat} {s t : State} {g : Seg} {a : Word} {al : Bool} {v : BitVec w}
    (h : memWrite s g a al v = .ok t) : t.mem = writtenMem s.mem s.mode64 a v := by
  unfold memWrite at h
  split at h
  · cases h
  · cases h
    rfl

section
variable {w : Nat} {m : Memory} (hm : m.wf = true) (m64 : Bool) (a : Word) (v : BitVec w)
include hm

theorem read_writtenMem_of_ne {x : Nat} (hx : ∀ k < w / 8, x ≠ (byteAddress m64 a k).toNat) :
    (writtenMem m m64 a v).read x = m.read x := by
  refine read_write_fold_of_ne hm m64 a ?_
  rw [zipIdx_toBytes]
  simpa using hx

/-- Byte `k` of the value stands at its address: no later byte is written there. -/
theorem read_writtenMem {k : Nat} (hk : k < w / 8) (hw : w / 8 < 2 ^ 32) :
    (writtenMem m m64 a v).read (byteAddress m64 a k).toNat = v.extractLsb' (8 * k) 8 := by
  obtain ⟨n, hn⟩ : ∃ n, w / 8 = k + (n + 1) := ⟨w / 8 - k - 1, by omega⟩
  have later : ∀ j < n, (byteAddress m64 a k).toNat ≠ (byteAddress m64 a (k + (j + 1))).toNat := by
    intro j hj he
    have := byteAddress_injective (by omega) (by omega) he
    omega
  have hwf := write_fold_wf hm m64 a ((List.range k).map fun j => (v.extractLsb' (8 * j) 8, j))
  rw [writtenMem, zipIdx_toBytes, hn, List.range_add, List.range_succ_eq_map]
  simp only [List.map_append, List.map_cons, List.foldl_append, List.foldl_cons, List.map_map, Nat.add_zero]
  rw [read_write_fold_of_ne (Memory.write_wf hwf (byteAddress m64 a k).isLt _) m64 a (by simpa using later),
    Memory.read_write hwf, if_pos rfl]

end

/-- Whether a load faults does not depend on what memory holds. -/
theorem loadFault_withMem (s : State) (mem' : Memory) (g : Seg) (a : Word) (n : Nat) (al : Bool) :
    loadFault { s with mem := mem' } g a n al = loadFault s g a n al := by
  have hp : ∀ l, firstPageFault { s with mem := mem' } l = firstPageFault s l := firstPageFault_congr rfl
  unfold loadFault
  rw [hp]
  rfl

/-! ### The statements -/

/-- Settles O38: bit `i` of the value is a bit of byte `i / 8`, at whatever width it is read. -/
theorem memReadIsLittleEndian : Obligations.MemReadIsLittleEndian := by
  intro w s g a al v h
  obtain ⟨hf, rfl⟩ := memRead_eq_ok_iff.1 h
  refine ⟨fun k hk => ⟨granted_of_loadFault_eq_none hf (by omega), ?_, toNat_byteAddress ..⟩, fun n x hn hx => ?_⟩
  · apply BitVec.eq_of_getLsbD_eq
    intro i hi
    rw [BitVec.getLsbD_extractLsb', getLsbD_ofBytes_readBytes (by omega) (by omega), show (8 * k + i) / 8 = k by omega,
      show (8 * k + i) % 8 = i by omega]
    simp [hi]
  · obtain ⟨-, rfl⟩ := memRead_eq_ok_iff.1 hx
    apply BitVec.eq_of_getLsbD_eq
    intro i hi
    rw [BitVec.getLsbD_extractLsb', Nat.zero_add, getLsbD_ofBytes_readBytes hi (by omega),
      getLsbD_ofBytes_readBytes (by omega) (by omega)]
    simp [hi]

/-- Settles O39: the bytes written stand at distinct addresses, and the faults of a load do not look at memory. -/
theorem memReadAfterMemWriteGivesTheValue : Obligations.MemReadAfterMemWriteGivesTheValue := by
  intro w s t g a al v hw hm h
  obtain ⟨hf, ht⟩ := memWrite_eq_ok h
  have hmem := memWrite_mem h
  refine ⟨memRead_eq_ok_iff.2 ⟨?faults, ?value⟩, fun x hx => ?_, memWrite_wf hm h, ht⟩
  case faults => rw [ht, loadFault_withMem, hf]
  case value =>
    have h64 : t.mode64 = s.mode64 := by rw [ht]; rfl
    apply BitVec.eq_of_getLsbD_eq
    intro i hi
    have hk : i / 8 < w / 8 := by rcases hw with rfl | rfl | rfl <;> omega
    rw [getLsbD_ofBytes_readBytes hi hk, hmem, h64, read_writtenMem hm _ _ _ hk (by omega), BitVec.getLsbD_extractLsb',
      Nat.div_add_mod]
    simp [Nat.mod_lt]
  · rw [hmem]
    exact read_writtenMem_of_ne hm _ _ _ hx

end Sys2Proof.Machine
end

section
/-! The rows of the opcode table (R111, R118), the length of an encoding (R92), and the run of a text (`70_reset_and_hazards.md`
R302, R304). -/

namespace Sys2Proof

/-! ### The rows -/

theorem Form.mem_all (f : Form) : f ∈ Form.all := by
  cases f <;> decide

/-- Two rows differ in a bit that both masks keep. -/
theorem Form.eq_of_compatible : ∀ f ∈ Form.all, ∀ g ∈ Form.all, f.bits &&& g.mask = g.bits &&& f.mask → f = g := by
  decide

/-- A key has at most one row (R111). -/
theorem Form.eq_of_key {key : BitVec 18} {f g : Form} (hf : key &&& f.mask = f.bits) (hg : key &&& g.mask = g.bits) :
    f = g := by
  refine Form.eq_of_compatible f f.mem_all g g.mem_all ?_
  rw [← hf, ← hg, BitVec.and_assoc, BitVec.and_assoc, BitVec.and_comm f.mask]

/-- The row of a key is the one whose bits it has under the mask. -/
theorem selectForm_eq_some_iff {key : BitVec 18} {f : Form} : selectForm key = some f ↔ key &&& f.mask = f.bits := by
  constructor
  · intro h
    simpa using List.find?_some h
  · intro h
    have hsome : (selectForm key).isSome = true := List.find?_isSome.2 ⟨f, f.mem_all, by simpa using h⟩
    obtain ⟨g, hg⟩ := Option.isSome_iff_exists.1 hsome
    have hkey : key &&& g.mask = g.bits := by simpa using List.find?_some hg
    rw [hg, Form.eq_of_key hkey h]

/-! ### The length of an encoding -/

/-- The encoder writes `ilen` bytes (R92). -/
theorem length_encode (i : Instr) : (encode i).length = i.len := by
  rw [Instr.len, Fields.len]
  cases hv : i.fields.form.vex with
  | true =>
    rw [encode_of_vex hv]
    simp only [List.length_append, Machine.length_prefixBytes, Machine.length_vexTail, if_true]
    omega
  | false =>
    rw [encode, if_neg (by simp [hv]), Fields.legacyBytes_eq]
    simp only [List.length_append, Machine.length_prefixBytes, Machine.length_ppBytes, Machine.length_legacyTail,
      Bool.false_eq_true, if_false]
    omega

theorem length_encode_pos (i : Instr) : 0 < (encode i).length := by
  rw [length_encode, Instr.len]
  unfold Fields.len
  omega

end Sys2Proof

namespace Sys2Proof.Machine

/-! ### A text at `pc` -/

theorem addressLimit_le (s : State) : s.addressLimit ≤ 2 ^ 64 := by
  unfold State.addressLimit
  split <;> decide

/-- The next instruction pointer, in the terms of the address limit. -/
theorem State.toNat_nextPc_mod (s : State) (n : Nat) : (s.nextPc n).toNat = (s.pc.toNat + n) % s.addressLimit :=
  s.toNat_nextPc n

/-- The beginning of a text stands at `pc` too. -/
theorem TextAt.left {s : State} {a b : List Byte} (h : TextAt s (a ++ b)) : TextAt s a := by
  obtain ⟨below, byte⟩ := h
  rw [List.length_append] at below
  refine ⟨by omega, fun k hk => ?_⟩
  have hb := byte k (by rw [List.length_append]; omega)
  rwa [List.getElem_append_left hk] at hb

/-- What a completed instruction keeps of the system carries a text over, from the address at which the rest of it begins. -/
theorem TextAt.right {s t : State} {a b : List Byte} (h : TextAt s (a ++ b)) (hsys : SameSystem s t)
    (hpc : t.pc.toNat = s.pc.toNat + a.length) : TextAt t b := by
  obtain ⟨below, byte⟩ := h
  rw [List.length_append] at below
  have hlimit : t.addressLimit = s.addressLimit := by simp [State.addressLimit, State.mode64, hsys.mode]
  refine ⟨by omega, fun k hk => ?_⟩
  have hb := byte (a.length + k) (by rw [List.length_append]; omega)
  rw [List.getElem_append_right (by omega)] at hb
  simp only [Nat.add_sub_cancel_left] at hb
  rwa [hsys.fetchMap, hsys.memory, hpc, Nat.add_assoc]

/-! ### A run of a text (R304) -/

/-- The text of the instructions stands at `pc`, in a mode in which each has an encoding, and does not fill the address space. -/
structure RunsText (s : State) (is : List Instr) : Prop where
  modelled : s.mode.modelled = true
  pc : s.pc.toNat < s.addressLimit
  wf : ∀ i ∈ is, i.wf s.mode64 = true
  text : TextAt s (is.flatMap encode)
  short : (is.flatMap encode).length < s.addressLimit

/-- The end of the text of the instructions. -/
def textEndOf (s : State) (is : List Instr) : Word := textEnd s (is.flatMap encode).length

theorem textEndOf_nil {s : State} (h : s.pc.toNat < s.addressLimit) : textEndOf s [] = s.pc := by
  apply BitVec.eq_of_toNat_eq
  rw [textEndOf, textEnd, State.toNat_nextPc_mod, List.flatMap_nil, List.length_nil, Nat.add_zero, Nat.mod_eq_of_lt h]

section
variable {s : State} {i : Instr} {is : List Instr} (h : RunsText s (i :: is))
include h

/-- A run does not stand at its end while there is text left. -/
theorem RunsText.pc_ne_textEndOf : s.pc ≠ textEndOf s (i :: is) := by
  have hpos := length_encode_pos i
  have below := h.text.below
  have short := h.short
  have hpc := h.pc
  intro he
  have hn := congrArg BitVec.toNat he
  rw [textEndOf, textEnd, State.toNat_nextPc_mod] at hn
  rw [List.flatMap_cons, List.length_append] at below short hn
  rcases below.lt_or_eq with hlt | heq
  · rw [Nat.mod_eq_of_lt hlt] at hn
    omega
  · rw [heq, Nat.mod_self] at hn
    omega

theorem RunsText.step_eq : step s = exec i s :=
  step_of_encode h.modelled (h.wf i List.mem_cons_self) (h.text.left (b := is.flatMap encode))

/-- After the first instruction the rest of the text stands at `pc`, and it ends where the whole text does. -/
theorem RunsText.next {t : State} (hx : exec i s = .next t) : RunsText t is ∧ textEndOf t is = textEndOf s (i :: is) := by
  obtain ⟨f, hc⟩ := exec_completed hx
  obtain ⟨hpc, -, hsys⟩ := hc.committed
  have h64 : t.mode64 = s.mode64 := by simp [State.mode64, hsys.mode]
  have hlimit : t.addressLimit = s.addressLimit := by rw [State.addressLimit, h64, State.addressLimit]
  have below := h.text.below
  have short := h.short
  have hlt := h.pc
  rw [List.flatMap_cons, List.length_append, length_encode] at below short
  have hpcn : t.pc.toNat = (s.pc.toNat + i.len) % s.addressLimit := by rw [hpc, State.toNat_nextPc_mod]
  have hpos : 0 < s.addressLimit := by omega
  refine ⟨⟨by rw [hsys.mode]; exact h.modelled, by rw [hpcn, hlimit]; exact Nat.mod_lt _ hpos,
    fun j hj => by rw [h64]; exact h.wf j (List.mem_cons_of_mem i hj), ?text, by omega⟩, ?_⟩
  case text =>
    cases is with
    | nil => exact ⟨by rw [hpcn, hlimit]; exact (Nat.mod_lt _ hpos).le, nofun⟩
    | cons j js =>
      have hj := length_encode_pos j
      rw [List.flatMap_cons, List.length_append] at below
      refine TextAt.right (a := encode i) h.text hsys ?_
      rw [hpcn, length_encode, Nat.mod_eq_of_lt (by omega)]
  · apply BitVec.eq_of_toNat_eq
    rw [textEndOf, textEnd, State.toNat_nextPc_mod, hlimit, hpcn, textEndOf, textEnd, State.toNat_nextPc_mod,
      List.flatMap_cons, List.length_append, length_encode, Nat.mod_add_mod, Nat.add_assoc]

end

/-- A run executes the instructions that complete, one step each, and stands at the text of the rest. -/
theorem RunsText.run_eq {before rest : List Instr} {s u : State} {n : Nat} (h : RunsText s (before ++ rest))
    (hx : execAll before s = .next u) (hn : before.length ≤ n) :
    RunsText u rest ∧ textEndOf u rest = textEndOf s (before ++ rest) ∧
      run (textEndOf s (before ++ rest)) n s = run (textEndOf u rest) (n - before.length) u := by
  induction before generalizing s n with
  | nil =>
    cases hx
    exact ⟨h, rfl, rfl⟩
  | cons i before ih =>
    rw [List.cons_append] at h ⊢
    cases hi : exec i s with
    | fault f => simp [execAll, hi] at hx
    | refused r => simp [execAll, hi] at hx
    | next t =>
      obtain ⟨ht, hend⟩ := h.next hi
      obtain ⟨m, rfl⟩ : ∃ m, n = m + 1 := ⟨n - 1, by rw [List.length_cons] at hn; omega⟩
      obtain ⟨hu, hend', hrun⟩ := ih ht (by simpa [execAll, hi] using hx) (by simpa using hn)
      refine ⟨hu, hend'.trans hend, ?_⟩
      rw [run_next h.pc_ne_textEndOf (h.step_eq.trans hi), ← hend, hrun, List.length_cons, Nat.add_sub_add_right]

/-- A text whose instructions all complete is run to its end. -/
theorem RunsText.run_finished {is : List Instr} {s t : State} {n : Nat} (h : RunsText s is) (hx : execAll is s = .next t)
    (hn : is.length ≤ n) : run (textEndOf s is) n s = .finished t := by
  rw [← List.append_nil is] at h ⊢
  obtain ⟨ht, -, hrun⟩ := h.run_eq hx hn
  rw [hrun]
  exact run_at_end _ (textEndOf_nil ht.pc).symm

/-- A run ends in the first fault or refusal. -/
theorem RunsText.run_stopped {before after : List Instr} {i : Instr} {s u : State} {n : Nat}
    (h : RunsText s (before ++ i :: after)) (hx : execAll before s = .next u) (hn : (before ++ i :: after).length ≤ n) :
    (∀ f, exec i u = .fault f → run (textEndOf s (before ++ i :: after)) n s = .faulted f (u.atFault f)) ∧
    (∀ r, exec i u = .refused r → run (textEndOf s (before ++ i :: after)) n s = .refused r u) := by
  rw [List.length_append, List.length_cons] at hn
  obtain ⟨hu, -, hrun⟩ := h.run_eq hx (show before.length ≤ n by omega)
  obtain ⟨m, hm⟩ : ∃ m, n - before.length = m + 1 := ⟨n - before.length - 1, by omega⟩
  rw [hrun, hm]
  exact ⟨fun f hf => run_fault hu.pc_ne_textEndOf (hu.step_eq.trans hf),
    fun r hr => run_refused hu.pc_ne_textEndOf (hu.step_eq.trans hr)⟩

/-! ### A placed text (R302) -/

/-- A fetch is admitted for exactly the bytes of a placed text. -/
theorem answer_placeText_iff (s : State) (text : List Byte) (a : Nat) :
    Admission.answer (placeText s text).fetchMap a = .granted ↔ s.pc.toNat ≤ a ∧ a < s.pc.toNat + text.length := by
  simp [Admission.answer, Region.holds]

section
variable {s : State} {text : List Byte} (hfit : s.pc.toNat + text.length ≤ s.addressLimit) (hm : s.mem.wf = true)
include hfit hm

theorem read_placeText (a : Nat) :
    (placeText s text).mem.read a =
      if s.pc.toNat ≤ a then text.getD (a - s.pc.toNat) (s.mem.read a) else s.mem.read a :=
  Memory.read_writeBytes hm (hfit.trans (addressLimit_le s)) a

/-- A text that fits stands at `pc` once it is placed. -/
theorem textAt_placeText : TextAt (placeText s text) text where
  below := hfit
  byte k hk := by
    refine ⟨(answer_placeText_iff s text _).2 ⟨Nat.le_add_right _ k, Nat.add_lt_add_left hk _⟩, ?_⟩
    rw [placeText_pc, read_placeText hfit hm, if_pos (Nat.le_add_right _ k), Nat.add_sub_cancel_left]
    simp [List.getD, hk]

/-- Outside the text memory is as before. -/
theorem read_placeText_outside {a : Nat} (ha : a < s.pc.toNat ∨ s.pc.toNat + text.length ≤ a) :
    (placeText s text).mem.read a = s.mem.read a := by
  rw [read_placeText hfit hm]
  split
  · rw [List.getD_eq_default _ _ (by omega)]
  · rfl

end

/-! ### The rows of the table, placed (R111; log entries 1 and 2) -/

/-- The instruction that a table word names: ModRM 00H is the memory operand `[rax]`, a VEX prefix has three bytes, and a REX
byte is there where `W` is 1. -/
def tableInstr (f : Form) : Instr :=
  f.build { seg := none, addr32 := false, ext := f.vex || f.w, r := false, x := false, b := false } 0 (.mem (.based 0 .none))

/-- The bytes of a table word are the encoding of its instruction, and zeros. -/
theorem tableBytes_eq (f : Form) :
    ∃ zeros, tableBytes (f.bits.toNat % 2 ^ 24) = encode (tableInstr f) ++ zeros := by
  cases f <;> exact ⟨_, rfl⟩

theorem tableInstr_wf (f : Form) : (tableInstr f).wf true = true := by
  cases f <;> rfl

theorem memoryOperand_tableInstr (f : Form) : memoryOperand (tableInstr f) = some (.based 0 .none) := by
  cases f <;> rfl

theorem decodeTableWord_bits (f : Form) : decodeTableWord 24 f.bits.toNat = some (tableInstr f) := by
  obtain ⟨zeros, h⟩ := tableBytes_eq f
  rw [decodeTableWord, h, decode_encode (tableInstr_wf f)]

/-- The launched machine with the word of a row placed at `pc`. -/
def placedRow (f : Form) : State := State.reset.withFetchWord 24 f.bits.toNat

theorem legacyReady_launched : LegacyReady (launchControls State.reset) true := ⟨rfl, rfl, rfl, .inl rfl, rfl⟩

theorem vexReady_launched : VexReady (launchControls State.reset) := ⟨rfl, rfl, rfl, .inl rfl, rfl⟩

/-- The enable bits after the launch are those that every row needs. -/
theorem admitted_placedRow (f : Form) : Admitted (tableInstr f) (placedRow f) := by
  refine ⟨?_, fun _ => rfl⟩
  have hfeature : legacyFeature (tableInstr f) (placedRow f) = true := by cases f <;> rfl
  obtain ⟨hem, hfx, -, hmode, hts⟩ := legacyReady_launched
  obtain ⟨hos, hxcr, havx, -, -⟩ := vexReady_launched
  unfold Ready
  split
  · exact ⟨hos, hxcr, havx, hmode, hts⟩
  · exact ⟨hem, hfx, hfeature, hmode, hts⟩

/-- RAX is 0 after reset, and the operand `[rax]` has no other part. -/
theorem operandAddress_placedRow (f : Form) : operandAddress (tableInstr f) (.based 0 .none) (placedRow f) = 0 := by
  cases f <;> rfl

theorem answer_placedRow (f : Form) (a : Word) : Admission.answer (placedRow f).loadMap a.toNat = .granted := by
  have h := a.isLt
  simp [placedRow, State.withFetchWord, launch, launchControls, State.reset, Mode.modelled, Admission.answer, Region.holds, h]

/-- Every row completes on its placed word: its operand is the admitted zeros at address 0, and every mask is set. -/
theorem exec_placedRow (f : Form) : ∃ t, exec (tableInstr f) (placedRow f) = .next t := by
  refine admittedInstructionCompletesUnderMasks _ _ (admitted_placedRow f) ?_ fun m hm => ?_
  · exact show (0x1F80#32).extractLsb' 7 6 = 63 by decide
  · cases (memoryOperand_tableInstr f).symm.trans hm
    refine ⟨⟨fun _ => ?_, fun k _ => ?_⟩, fun _ => ?_, fun k _ => answer_placedRow f _, ?_⟩
    · rw [operandAddress_placedRow]; rfl
    · rw [operandByte, answer_placedRow]; nofun
    · rw [operandAddress_placedRow]; rfl
    · rintro ⟨-, -, hcpl⟩
      exact absurd hcpl (show (0 : BitVec 2) ≠ 3 by decide)

theorem length_tableBytes (w : Nat) : (tableBytes w).length = 15 := by
  simp [tableBytes, maxLen]

theorem textAt_placedRow (f : Form) : TextAt (placedRow f) (tableBytes (f.bits.toNat % 2 ^ 24)) := by
  refine textAt_placeText (s := launch State.reset) ?_ rfl
  rw [length_tableBytes]
  exact show 0xFFF0 + 15 ≤ 2 ^ 64 by decide

theorem step_placedRow (f : Form) : ∃ t, step (placedRow f) = .next t := by
  obtain ⟨zeros, hb⟩ := tableBytes_eq f
  have htext : TextAt (placedRow f) (encode (tableInstr f) ++ zeros) := hb ▸ textAt_placedRow f
  have h64 : (placedRow f).mode64 = true := rfl
  rw [step_of_encode rfl (h64 ▸ tableInstr_wf f) htext.left]
  exact exec_placedRow f

/-! ### The statements -/

/-- Settles O3: two rows that share a key agree where both masks keep a bit. -/
theorem opcodeRowsAreDisjoint : Obligations.OpcodeRowsAreDisjoint := fun _ _ _ => Form.eq_of_key

/-- Settles O36: each row's word is the encoding of an instruction that completes after the launch. -/
theorem everyTableRowRunsWhenPlaced : Obligations.EveryTableRowRunsWhenPlaced := by
  intro f
  obtain ⟨t, ht⟩ := step_placedRow f
  exact ⟨tableInstr f, t, decodeTableWord_bits f, f.form_build _ _ _, ht⟩

/-- Settles O60: by induction on the instructions that complete, with the text of the rest at `pc` after each. -/
theorem runOfATextExecutesItsInstructionsInOrder : Obligations.RunOfATextExecutesItsInstructionsInOrder := by
  refine ⟨fun s is n hm hpc hwf htext hshort hn => ?_, fun s fin n => ?_, fun s text n => ?_⟩
  · have h : RunsText s is := ⟨hm, hpc, hwf, htext, hshort⟩
    refine ⟨fun t hx => h.run_finished hx hn, ?_⟩
    rintro before after i u rfl hx
    exact h.run_stopped hx hn
  · exact ⟨run_at_end n, fun hne => ⟨fun t => run_next hne, fun f => run_fault hne, fun r => run_refused hne⟩⟩
  · exact ⟨runText_of_wraps, fun hfit hm => ⟨runText_of_fits hfit, textAt_placeText hfit hm, answer_placeText_iff s text,
      fun a => read_placeText_outside hfit hm⟩⟩

end Sys2Proof.Machine
end

section
/-! The narrowing `F64toF32` against its reference (R155), and the round trips through double precision. -/

namespace Sys2Proof.Machine

/-! ### Bits of the narrowed classes -/

theorem pack32_infinity (s : Bool) : pack32 { sign := s, exp := 255, frac := 0 } = infiniteF32 s := by
  cases s <;> rfl

theorem pack32_zero (s : Bool) : pack32 { sign := s, exp := 0, frac := 0 } = zeroF32 s := by
  cases s <;> rfl

/-- A NaN with its quiet bit set. -/
theorem pack32_quieted (s : Bool) (y : BitVec 22) :
    pack32 { sign := s, exp := 255, frac := 2 ^ 22 + y.toNat } = BitVec.ofBool s ++ 0xFF#8 ++ 1#1 ++ y := by
  have := y.isLt
  apply BitVec.eq_of_toNat_eq
  simp only [pack32, toNat_append_eq_add, BitVec.toNat_ofNat]
  omega

/-- The bits of a double-precision fraction that a single-precision NaN keeps. -/
theorem toNat_extractLsb'_29_22 (b : BitVec 64) : (b.extractLsb' 29 22).toNat = (unpack64 b).frac % 2 ^ 51 / 2 ^ 29 := by
  simp only [unpack64, BitVec.extractLsb'_toNat, Nat.shiftRight_eq_div_pow]
  omega

/-- The overflow result, said by cases of the rounding mode and the sign (R155 step 6 (a)). -/
theorem f32Overflow_eq (rc : Rounding) (s : Bool) :
    f32Overflow rc s =
      if rc = .nearest ∨ (rc = .up ∧ s = false) ∨ (rc = .down ∧ s = true) then infiniteF32 s else largestF32 s := by
  cases rc <;> cases s <;> rfl

/-! ### Powers of two below a value -/

theorem Scaled.two_zpow_le_abs_val_iff {q : Scaled} (h : q.num ≠ 0) {k : Int} : (2 : ℚ) ^ k ≤ |q.val| ↔ k ≤ q.log2 := by
  rw [Scaled.log2_eq h]
  exact Int.zpow_le_iff_le_log (by norm_num) (abs_pos.2 (Scaled.val_ne_zero h))

theorem Fmt.num_value_ne_zero {f : Fmt} {u : Unpacked} (h : u.exp ≠ 0 ∨ u.frac ≠ 0) : (f.value u).num ≠ 0 := by
  have := Nat.two_pow_pos f.fbits
  rw [← Int.natAbs_ne_zero, Fmt.natAbs_num_value]
  split_ifs <;> omega

/-! ### The denormal grid (R155 step 6 (c)) -/

theorem encode_denormal (s : Bool) {m : Nat} (h0 : m ≠ 0) (hm : m < 2 ^ 23) :
    f32.encode s m (-149) = { sign := s, exp := 0, frac := m } := by
  have hlog : m.log2 < 23 := (Nat.log2_lt h0).2 hm
  simp only [Fmt.encode, h0, if_false, show f32.emin = -126 from rfl, show f32.fbits = 23 from rfl]
  rw [if_neg (by omega)]
  simp

/-- `Encode` of a magnitude on the denormal grid, up to the least normal number. -/
theorem holds_encode_tiny (s : Bool) {m : Nat} (hm : m ≤ 2 ^ 23) :
    f32.Holds (f32.encode s m (-149)) s ((if s then -1 else 1) * (m * 2 ^ (-149 : Int))) := by
  have hemin : f32.emin = -126 := rfl
  have hfbits : f32.fbits = 23 := rfl
  have hbias : f32.bias = 127 := rfl
  have hmax : f32.expMax = 255 := rfl
  rcases Nat.eq_zero_or_pos m with rfl | hpos
  · have he : f32.encode s 0 (-149) = { sign := s, exp := 0, frac := 0 } := rfl
    rw [he]
    exact ⟨rfl, by simp [hmax], by simp, by simp [Fmt.val]⟩
  rcases hm.eq_or_lt with rfl | hlt
  · have he : f32.encode s (2 ^ 23) (-149) = { sign := s, exp := 1, frac := 0 } := by cases s <;> rfl
    rw [he]
    refine ⟨rfl, by simp [hmax], by simp, ?_⟩
    simp only [Fmt.val, hfbits, hbias]
    norm_num
  · rw [encode_denormal s hpos.ne' hlt]
    exact ⟨rfl, by simp [hmax], hlt, by simp [Fmt.val, hemin, hfbits]⟩

/-- A signed integer is its sign and its magnitude. -/
theorem sign_mul_natAbs {d : Int} {s : Bool} (h : if s then d ≤ 0 else 0 ≤ d) :
    (if s then -1 else 1) * (d.natAbs : ℚ) = d := by
  rw [Nat.cast_natAbs, Int.cast_abs]
  cases s with
  | false =>
    have hd : (0 : ℚ) ≤ d := by exact_mod_cast (show 0 ≤ d by simpa using h)
    simp [abs_of_nonneg hd]
  | true =>
    have hd : (d : ℚ) ≤ 0 := by exact_mod_cast (show d ≤ 0 by simpa using h)
    simp [abs_of_nonpos hd]

/-- A value of magnitude at most `2^-126`, rounded to the denormal grid, keeps its sign and fits the grid. -/
theorem roundTo_tiny {q : Scaled} (h : q.log2 < -126) (h0 : q.num ≠ 0) (rc : Rounding) :
    (q.roundTo (-149) rc).1.natAbs ≤ 2 ^ 23 ∧
    (if decide (q.num < 0) then (q.roundTo (-149) rc).1 ≤ 0 else 0 ≤ (q.roundTo (-149) rc).1) := by
  have hp : (0 : ℚ) < 2 ^ q.exp := by positivity
  have hq : |q.val| ≤ ((2 ^ 23 : Int) : ℚ) * 2 ^ (-149 : Int) :=
    calc |q.val| ≤ 2 ^ (q.log2 + 1) := (Scaled.abs_val_lt h0).le
      _ ≤ 2 ^ (-126 : Int) := zpow_le_zpow_right₀ (by norm_num) (by omega)
      _ = ((2 ^ 23 : Int) : ℚ) * 2 ^ (-149 : Int) := by norm_num
  obtain ⟨hlow, hhigh⟩ := abs_le.1 hq
  have h1 := Scaled.roundTo_le hhigh rc
  have h2 := Scaled.le_roundTo (k := -2 ^ 23) (by push_cast at hlow ⊢; linarith) rc
  refine ⟨by omega, ?_⟩
  by_cases hneg : q.num < 0
  · simp only [hneg, decide_true, if_true]
    refine Scaled.roundTo_le ?_ rc
    have hnum : (q.num : ℚ) < 0 := by exact_mod_cast hneg
    simpa [Scaled.val] using (mul_neg_of_neg_of_pos hnum hp).le
  · simp only [hneg, decide_false, Bool.false_eq_true, if_false]
    refine Scaled.le_roundTo ?_ rc
    have hnum : (0 : ℚ) ≤ q.num := by exact_mod_cast not_lt.1 hneg
    simpa [Scaled.val] using mul_nonneg hnum hp.le

theorem isF32_tiny {q : Scaled} (h : q.log2 < -126) (h0 : q.num ≠ 0) (rc : Rounding) {s : Bool} (hs : s = decide (q.num < 0)) :
    IsF32 (pack32 (f32.encode s (q.roundTo (-149) rc).1.natAbs (-149))) s ((q.roundTo (-149) rc).1 * 2 ^ (-149 : Int)) := by
  obtain ⟨hle, hsign⟩ := roundTo_tiny h h0 rc
  have hx := holds_encode_tiny s hle
  rw [← mul_assoc, sign_mul_natAbs (hs ▸ hsign)] at hx
  exact isF32_pack32 hx

/-! ### Step 6 of the narrowing -/

section
variable {q : Scaled} (rc : Rounding) (fz um s : Bool)

theorem f32OfValue_of_overflow (h : 128 ≤ (q.roundSig 24 rc).1.log2) :
    f32OfValue rc fz um s q =
      { value := f32Overflow rc s, flags := { FpFlags.none with overflow := true, precision := true } } := by
  simp only [f32OfValue, h, if_true]

theorem f32OfValue_of_normal (h1 : ¬ 128 ≤ (q.roundSig 24 rc).1.log2) (h2 : -126 ≤ (q.roundSig 24 rc).1.log2) :
    f32OfValue rc fz um s q =
      { value := pack32 (f32.encode s (q.roundSig 24 rc).1.num.natAbs (q.roundSig 24 rc).1.exp),
        flags := .inexact (q.roundSig 24 rc).2 } := by
  simp only [f32OfValue, h1, h2, if_true, if_false]

theorem f32OfValue_of_tiny (h : ¬ -126 ≤ (q.roundSig 24 rc).1.log2) : f32OfValue rc fz um s q = f32Tiny rc fz um s q := by
  simp only [f32OfValue, h, show ¬ 128 ≤ (q.roundSig 24 rc).1.log2 by omega, if_false]

end

/-- Step 6 of R155 over the rationals. -/
theorem narrowedValue_f32OfValue {q : Scaled} (h0 : q.num ≠ 0) {s : Bool} (hs : s = decide (q.num < 0)) (rc : Rounding)
    (fz um : Bool) : NarrowedValue rc fz um s q.val (f32OfValue rc fz um s q) := by
  obtain ⟨hround, hflag⟩ := Scaled.roundSig_spec h0 24 rc
  obtain ⟨hnum, -, hsign⟩ := Scaled.roundSig_bounds h0 23 rc
  have hu0 : (q.roundSig 24 rc).1.num ≠ 0 := Int.natAbs_ne_zero.1 (Nat.two_pow_pos 23 |>.trans_le hnum).ne'
  have hpow := fun k : Int => Scaled.two_zpow_le_abs_val_iff hu0 (k := k)
  have h128 : (2 : ℚ) ^ 128 ≤ |(q.roundSig 24 rc).1.val| ↔ 128 ≤ (q.roundSig 24 rc).1.log2 := by
    rw [← hpow 128]; norm_cast
  refine ⟨_, hround, fun hov => ?overflow, fun hlow hhigh => ?normal, fun htiny => ?tiny⟩
  case overflow =>
    rw [f32OfValue_of_overflow _ _ _ _ (h128.1 hov)]
    exact ⟨rfl, f32Overflow_eq rc s⟩
  case normal =>
    have h1 : ¬ 128 ≤ (q.roundSig 24 rc).1.log2 := mt h128.2 (not_le.2 hhigh)
    have h2 := (hpow (-126)).1 hlow
    rw [f32OfValue_of_normal _ _ _ _ h1 h2]
    refine ⟨isF32_pack32 (Fmt.holds_encode (Fmt.fits_roundSig (f := f32) h0 rc h2 ?_) ?_), precisionIff_inexact hflag⟩
    · rw [show f32.bias = 127 from rfl, show f32.expMax = 255 from rfl, show f32.fbits + 1 = 24 from rfl]
      omega
    · rw [hs]
      exact decide_eq_decide.2 hsign.symm
  case tiny =>
    have h2 : ¬ -126 ≤ (q.roundSig 24 rc).1.log2 := mt (hpow (-126)).2 (not_le.2 htiny)
    have hq : q.log2 < -126 := lt_of_le_of_lt (Scaled.roundSig_log2 h0 23 rc).1 (not_le.1 h2)
    obtain ⟨hgrid, hinexact⟩ := q.roundTo_spec (-149) rc
    rw [f32OfValue_of_tiny _ _ _ _ h2]
    refine ⟨_, hgrid, ?_, ?_, ?_⟩
    · rintro rfl
      cases hd : (q.roundTo (-149) rc).2 with
      | true => exact .inl ⟨hinexact.1 hd, by simp [f32Tiny, hd]⟩
      | false => exact .inr ⟨by simpa [hd] using hinexact, by simp [f32Tiny, hd, FpFlags.none]⟩
    · rintro rfl rfl
      exact ⟨pack32_zero s, rfl⟩
    · rintro rfl rfl
      refine ⟨isF32_tiny hq h0 rc hs, ?_⟩
      cases hd : (q.roundTo (-149) rc).2 with
      | true => exact .inl ⟨hinexact.1 hd, by simp [f32Tiny, hd]⟩
      | false => exact .inr ⟨by simpa [hd] using hinexact, by simp [f32Tiny, hd, FpFlags.none]⟩

/-- Step 6 on the exact value of a denormal or normal bit string. -/
theorem narrowedValue_of_unpacked {f : Fmt} {u : Unpacked} (h : u.exp ≠ 0 ∨ u.frac ≠ 0) (rc : Rounding) (fz um : Bool) :
    NarrowedValue rc fz um u.sign (f.val u) (f32OfValue rc fz um u.sign (f.value u)) :=
  Fmt.val_value f u ▸ narrowedValue_f32OfValue (Fmt.num_value_ne_zero h) (Fmt.sign_eq_decide_num_neg h) rc fz um

/-- Settles O44, class by class; step 6 is `narrowedValue_f32OfValue`. -/
theorem doubleToSingleMatchesTheReference : Obligations.DoubleToSingleMatchesTheReference := by
  rintro rc daz fz um b s rfl
  refine ⟨fun h => ?_, fun h => ?_, fun h => ?_, fun h => ?_, fun h hdaz => ?_, fun h => ?_⟩
  · simp only [f64ToF32, h, pack32_infinity]
    rfl
  · simp only [f64ToF32, h, ← toNat_extractLsb'_29_22, pack32_quieted]
    rfl
  · simp only [f64ToF32, h, ← toNat_extractLsb'_29_22, pack32_quieted]
    rfl
  · rcases h with h | ⟨h, hdaz⟩
    · simp only [f64ToF32, h, pack32_zero]
      rfl
    · simp only [f64ToF32, h, hdaz, if_true, pack32_zero]
      rfl
  · refine ⟨_, narrowedValue_of_unpacked (.inr (Fmt.classify_eq_denormal_iff.1 h).2) rc fz um, ?_⟩
    simp only [f64ToF32, h, hdaz, Bool.false_eq_true, if_false]
  · have hx := narrowedValue_of_unpacked (f := f64) (.inl (Fmt.classify_eq_normal_iff.1 h).1) rc fz um
    simp only [f64ToF32, h]
    exact hx

end Sys2Proof.Machine
end

section
/-! The round trips through double precision: of a doubleword (`95_test_vectors.md` P1) and of a single-precision value
(R155, R156). -/

namespace Sys2Proof.Machine

/-! ### `Encode` read back -/

/-- A nonzero value that fits is encoded as a normal bit string. -/
theorem Fmt.classify_encode {f : Fmt} {q : Scaled} (h : f.Fits q) (h0 : q.num ≠ 0) (s : Bool) :
    f.classify (f.encode s q.num.natAbs q.exp) = .normal := by
  obtain ⟨hlow, hhigh, -⟩ := h
  rw [Scaled.log2] at hlow hhigh
  rw [Fmt.encode_normal s (Int.natAbs_ne_zero.2 h0) hlow, Fmt.classify_eq_normal_iff]
  unfold Fmt.emin at hlow
  constructor <;> simp only <;> omega

theorem unpack64_encode {q : Scaled} (h : f64.Fits q) :
    unpack64 (pack64 (f64.encode (decide (q.num < 0)) q.num.natAbs q.exp)) =
      f64.encode (decide (q.num < 0)) q.num.natAbs q.exp := by
  obtain ⟨-, hexp, hfrac, -⟩ := Fmt.holds_encode h rfl
  exact unpack64_pack64 (hexp.trans (by decide)) hfrac

theorem pack32_unpack32 (b : BitVec 32) : pack32 (unpack32 b) = b := by
  simp only [pack32, unpack32, BitVec.ofNat_toNat, BitVec.setWidth_eq]
  ext i hi
  grind

/-- A value on the grid is not changed by rounding to it. -/
theorem Scaled.roundTo_of_val_eq {q : Scaled} {grid k : Int} (h : q.val = k * 2 ^ grid) (rc : Rounding) :
    q.roundTo grid rc = (k, false) := by
  have hg : (0 : ℚ) < 2 ^ grid := by positivity
  obtain ⟨hround, hflag⟩ := q.roundTo_spec grid rc
  have heq := hround.eq_of_eq hg h
  refine Prod.ext ?_ (Bool.eq_false_iff.2 fun hf => hflag.1 hf heq)
  rw [h] at heq
  exact_mod_cast mul_right_cancel₀ hg.ne' heq

theorem Scaled.log2_congr {p q : Scaled} (hp : p.num ≠ 0) (h : q.val = p.val) : q.log2 = p.log2 := by
  have hq : q.num ≠ 0 := fun hz => Scaled.val_ne_zero hp (by rw [← h, Scaled.val, hz]; simp)
  rw [Scaled.log2_eq hq, Scaled.log2_eq hp, h]

/-! ### The doubleword -/

/-- An integer in the range converts to itself, in every rounding mode, with no flag. -/
theorem toIntConv_of_integer {f : Fmt} {w : Nat} {u : Unpacked} {n : Int} (hclass : f.classify u = .zero ∨ f.classify u = .normal)
    (hval : f.val u = n) (hlow : -(2 : Int) ^ (w - 1) ≤ n) (hhigh : n < (2 : Int) ^ (w - 1)) (rc : Rounding) (daz : Bool) :
    toIntConv f w rc daz u = { value := BitVec.ofInt w n, flags := .none } := by
  have hfin : finiteClass (f.classify u) = true := by rcases hclass with h | h <;> rw [h] <;> rfl
  have hden : f.classify u ≠ .denormal := by rcases hclass with h | h <;> rw [h] <;> nofun
  have hr : (f.value u).roundInt rc = (n, false) :=
    Scaled.roundTo_of_val_eq (by rw [Fmt.val_value, hval, zpow_zero, mul_one]) rc
  rw [toIntConv_of_finite hfin (absurd · hden), hr, if_neg (by simp only; omega)]
  rfl

theorem classify_i32ToF64 (x : BitVec 32) :
    f64.classify (unpack64 (i32ToF64 x).value) = .zero ∨ f64.classify (unpack64 (i32ToF64 x).value) = .normal := by
  by_cases h : x.toInt = 0
  · have hz : (i32ToF64 x).value = 0 := (integerToDoubleIsExact x).2.2.1 h
    exact .inl (by rw [hz]; rfl)
  · exact .inr ((congrArg f64.classify (unpack64_encode (fits_toInt x))).trans (Fmt.classify_encode (fits_toInt x) h _))

/-- Settles O47: the double-precision value is the integer, which every rounding mode leaves. -/
theorem integerRoundTripThroughDouble : Obligations.IntegerRoundTripThroughDouble := by
  intro rc daz x
  obtain ⟨-, ⟨-, -, hval⟩, -⟩ := integerToDoubleIsExact x
  exact (toIntConv_of_integer (classify_i32ToF64 x) (by exact_mod_cast hval) x.le_toInt x.toInt_lt rc daz).trans
    (by rw [BitVec.ofInt_toInt])

/-! ### The single-precision value -/

/-- `Encode` gives a normal bit string back from its exact value. -/
theorem encode_value_normal {b : BitVec 32} (h : f32.classify (unpack32 b) = .normal) :
    f32.encode (unpack32 b).sign (f32.value (unpack32 b)).num.natAbs (f32.value (unpack32 b)).exp = unpack32 b := by
  obtain ⟨he, hmax⟩ := Fmt.classify_eq_normal_iff.1 h
  have hfrac := unpack32_frac_lt b
  have hbias : f32.bias = 127 := rfl
  have hfbits : f32.fbits = 23 := rfl
  have hemin : f32.emin = -126 := rfl
  have hlog : (2 ^ 23 + (unpack32 b).frac).log2 = 23 := (Nat.log2_eq_iff (by omega)).2 ⟨by omega, by omega⟩
  rw [Fmt.natAbs_num_value, Fmt.value_exp, if_neg he, if_neg he, hbias, hfbits,
    Fmt.encode_normal _ (by omega) (by rw [hlog, hemin]; omega), hlog, hbias, hfbits]
  generalize unpack32 b = u at *
  obtain ⟨s, e, m⟩ := u
  simp only [Unpacked.mk.injEq, true_and] at *
  omega

/-- The widened value of a finite, nonzero bit string is a normal double-precision number. -/
structure Widened (b : BitVec 32) (w : BitVec 64) : Prop where
  normal : f64.classify (unpack64 w) = .normal
  sign : (unpack64 w).sign = (unpack32 b).sign
  val : (f64.value (unpack64 w)).val = (f32.value (unpack32 b)).val

theorem widened_f32ToF64 {b : BitVec 32} {daz : Bool}
    (h : f32.classify (unpack32 b) = .normal ∨ (f32.classify (unpack32 b) = .denormal ∧ daz = false)) :
    Widened b (f32ToF64 daz b).value := by
  have hexp : (unpack32 b).exp ≠ f32.expMax := by
    rcases h with h | ⟨h, -⟩
    · exact (Fmt.classify_eq_normal_iff.1 h).2
    · rw [(Fmt.classify_eq_denormal_iff.1 h).1]; decide
  have h0 : (unpack32 b).exp ≠ 0 ∨ (unpack32 b).frac ≠ 0 := by
    rcases h with h | ⟨h, -⟩
    · exact .inl (Fmt.classify_eq_normal_iff.1 h).1
    · exact .inr (Fmt.classify_eq_denormal_iff.1 h).2
  have hvalue : (f32ToF64 daz b).value =
      pack64 (f64.encode (unpack32 b).sign (f32.value (unpack32 b)).num.natAbs (f32.value (unpack32 b)).exp) := by
    rcases h with h | ⟨h, rfl⟩ <;> simp [f32ToF64, h]
  obtain ⟨hsign, -, hval⟩ := isF64_widened hexp h0
  rw [hvalue]
  refine ⟨?_, hsign, by rw [Fmt.val_value, Fmt.val_value, hval]⟩
  rw [Fmt.sign_eq_decide_num_neg h0, unpack64_encode (fits_value_unpack32 hexp)]
  exact Fmt.classify_encode (fits_value_unpack32 hexp) (Fmt.num_value_ne_zero h0) _

theorem f64ToF32_of_widened {b : BitVec 32} {w : BitVec 64} (h : Widened b w) (rc : Rounding) (daz fz um : Bool) :
    f64ToF32 rc daz fz um w = f32OfValue rc fz um (unpack32 b).sign (f64.value (unpack64 w)) := by
  simp only [f64ToF32, h.normal, h.sign]

/-- Narrowing gives a normal bit string back: its value has 24 bits, and lies in the range. -/
theorem f32OfValue_normal {b : BitVec 32} (h : f32.classify (unpack32 b) = .normal) {q : Scaled}
    (hq : q.val = (f32.value (unpack32 b)).val) (rc : Rounding) (fz um : Bool) :
    f32OfValue rc fz um (unpack32 b).sign q = { value := b, flags := .none } := by
  obtain ⟨he, hmax⟩ := Fmt.classify_eq_normal_iff.1 h
  have hfrac := unpack32_frac_lt b
  have hexp := unpack32_exp_lt b
  have hp0 := Fmt.num_value_ne_zero (f := f32) (u := unpack32 b) (.inl he)
  have hpexp : (f32.value (unpack32 b)).exp = ((unpack32 b).exp : Int) - 127 - 23 := by
    rw [Fmt.value_exp, if_neg he]; rfl
  have hplog : (f32.value (unpack32 b)).log2 = (f32.value (unpack32 b)).exp + 23 := by
    have hlog : (2 ^ 23 + (unpack32 b).frac).log2 = 23 :=
      (Nat.log2_eq_iff (by omega)).2 ⟨Nat.le_add_right _ _, by omega⟩
    rw [Scaled.log2, Fmt.natAbs_num_value, if_neg he, show f32.fbits = 23 from rfl, hlog]
    omega
  have hround : q.roundSig 24 rc = (f32.value (unpack32 b), false) := by
    have hgrid : q.log2 - (24 : Nat) + 1 = (f32.value (unpack32 b)).exp := by
      rw [Scaled.log2_congr hp0 hq, hplog]; omega
    simp only [Scaled.roundSig, hgrid, Scaled.roundTo_of_val_eq hq]
  rw [show f32.expMax = 255 from rfl] at hmax
  rw [f32OfValue_of_normal _ _ _ _ (by rw [hround]; simp only; omega) (by rw [hround]; simp only; omega), hround]
  simp only [encode_value_normal h, pack32_unpack32]
  rfl

/-- A value of at most 24 bits is not changed by `RoundSig`. -/
theorem Scaled.log2_roundSig_of_val_eq {q : Scaled} (h0 : q.num ≠ 0) {k : Int} (h : q.val = k * 2 ^ (q.log2 - 23))
    (rc : Rounding) : (q.roundSig 24 rc).1.log2 = q.log2 := by
  have hgrid : q.log2 - (24 : Nat) + 1 = q.log2 - 23 := by omega
  have hval : (q.roundSig 24 rc).1.val = q.val := by
    simp only [Scaled.roundSig, hgrid, Scaled.roundTo_of_val_eq h, Scaled.val, ← h]
  exact Scaled.log2_congr h0 hval

/-- Narrowing gives a denormal bit string back where neither FZ nor an unmasked underflow acts on it: its value is on the
denormal grid. -/
theorem f32OfValue_denormal {b : BitVec 32} (h : f32.classify (unpack32 b) = .denormal) {q : Scaled}
    (hq : q.val = (f32.value (unpack32 b)).val) (rc : Rounding) :
    f32OfValue rc false true (unpack32 b).sign q = { value := b, flags := .none } := by
  obtain ⟨he, hfrac0⟩ := Fmt.classify_eq_denormal_iff.1 h
  have hfrac := unpack32_frac_lt b
  have hp0 := Fmt.num_value_ne_zero (f := f32) (u := unpack32 b) (.inr hfrac0)
  have hm : (f32.value (unpack32 b)).num.natAbs = (unpack32 b).frac := by rw [Fmt.natAbs_num_value, if_pos he]
  have hpexp : (f32.value (unpack32 b)).exp = -149 := by rw [Fmt.value_exp, if_pos he]; rfl
  have hval : q.val = (f32.value (unpack32 b)).num * 2 ^ (-149 : Int) := by rw [hq, Scaled.val, hpexp]
  have hqlog : q.log2 < -126 := by
    have hlog : (unpack32 b).frac.log2 < 23 := (Nat.log2_lt hfrac0).2 hfrac
    rw [Scaled.log2_congr hp0 hq, Scaled.log2, hm, hpexp]
    omega
  have hq0 : q.num ≠ 0 := fun hz => Scaled.val_ne_zero hp0 (by rw [← hq, Scaled.val, hz]; simp)
  have hu : (q.roundSig 24 rc).1.log2 = q.log2 := by
    obtain ⟨k, hk⟩ : ∃ k : Nat, (-149 : Int) = q.log2 - 23 + k := ⟨(-149 - (q.log2 - 23)).toNat, by omega⟩
    refine Scaled.log2_roundSig_of_val_eq hq0 (k := (f32.value (unpack32 b)).num * 2 ^ k) ?_ rc
    rw [hval, hk, zpow_add₀ (by norm_num), zpow_natCast]
    push_cast
    ring
  rw [f32OfValue_of_tiny _ _ _ _ (by omega)]
  simp only [f32Tiny, Scaled.roundTo_of_val_eq hval, hm, encode_denormal _ hfrac0 hfrac]
  rw [← he, pack32_unpack32]
  rfl

/-! ### Zeros, infinities and NaNs -/

theorem Fmt.classify_eq_zero {f : Fmt} {u : Unpacked} (h : f.classify u = .zero) :
    u = { sign := u.sign, exp := 0, frac := 0 } := by
  unfold Fmt.classify at h
  obtain ⟨s, e, m⟩ := u
  split_ifs at h
  simp_all

theorem Fmt.classify_eq_infinity {f : Fmt} {u : Unpacked} (h : f.classify u = .infinity) :
    u = { sign := u.sign, exp := f.expMax, frac := 0 } := by
  unfold Fmt.classify at h
  obtain ⟨s, e, m⟩ := u
  split_ifs at h
  simp_all

/-- A NaN has the largest exponent, and its class says what its quiet bit is. -/
theorem Fmt.exp_of_nan {f : Fmt} {u : Unpacked} (h : f.classify u = .quiet ∨ f.classify u = .signalling) :
    u.exp = f.expMax := by
  unfold Fmt.classify at h
  split_ifs at h <;> simp_all

theorem Fmt.quiet_bit_of_signalling {f : Fmt} {u : Unpacked} (h : f.classify u = .signalling) :
    u.frac / 2 ^ (f.fbits - 1) = 0 := by
  unfold Fmt.classify at h
  split_ifs at h
  assumption

section
variable (rc : Rounding) (daz fz um : Bool) (s : Bool)

theorem f64ToF32_zero :
    f64ToF32 rc daz fz um (pack64 { sign := s, exp := 0, frac := 0 }) =
      { value := pack32 { sign := s, exp := 0, frac := 0 }, flags := .none } := by
  have hu := unpack64_pack64 (u := { sign := s, exp := 0, frac := 0 }) (by simp) (by simp)
  have hc : f64.classify { sign := s, exp := 0, frac := 0 } = .zero := rfl
  simp only [f64ToF32, hu, hc]

theorem f64ToF32_infinity :
    f64ToF32 rc daz fz um (pack64 { sign := s, exp := 2047, frac := 0 }) =
      { value := pack32 { sign := s, exp := 255, frac := 0 }, flags := .none } := by
  have hu := unpack64_pack64 (u := { sign := s, exp := 2047, frac := 0 }) (by simp) (by simp)
  have hc : f64.classify { sign := s, exp := 2047, frac := 0 } = .infinity := rfl
  simp only [f64ToF32, hu, hc]

/-- A quiet NaN keeps the top of its fraction. -/
theorem f64ToF32_quieted {x : Nat} (hx : x < 2 ^ 22) :
    f64ToF32 rc daz fz um (pack64 { sign := s, exp := 2047, frac := 2 ^ 51 + x * 2 ^ 29 }) =
      { value := pack32 { sign := s, exp := 255, frac := 2 ^ 22 + x }, flags := .none } := by
  have hu := unpack64_pack64 (u := { sign := s, exp := 2047, frac := 2 ^ 51 + x * 2 ^ 29 }) (by simp) (by simp only; omega)
  have hc : f64.classify { sign := s, exp := 2047, frac := 2 ^ 51 + x * 2 ^ 29 } = .quiet := by
    simp only [Fmt.classify, show f64.expMax = 2047 from rfl, show f64.fbits = 52 from rfl]
    rw [if_neg (by omega), if_pos trivial, if_neg (by omega), if_neg (by omega)]
  have hfrac : (2 ^ 51 + x * 2 ^ 29) % 2 ^ 51 / 2 ^ 29 = x := by omega
  simp only [f64ToF32, hu, hc, hfrac]

end

/-- The quiet bit is bit 22. -/
theorem quieted_eq_or (s : Bool) (y : BitVec 22) :
    BitVec.ofBool s ++ 0xFF#8 ++ 1#1 ++ y = (BitVec.ofBool s ++ 0xFF#8 ++ 0#1 ++ y) ||| 0x00400000#32 := by
  have h : 0x00400000#32 = BitVec.twoPow 32 22 := by decide
  rw [h]
  apply BitVec.eq_of_getLsbD_eq
  intro i hi
  rw [BitVec.getLsbD_or, BitVec.getLsbD_twoPow]
  simp only [BitVec.getLsbD_append]
  rcases Nat.lt_trichotomy i 22 with h | rfl | h
  · simp [h, h.ne']
  · simp
  · simp [h.ne, show ¬ i < 22 by omega, show ¬ i - 22 < 1 by omega]

/-- A signalling NaN, field by field. -/
theorem signalling_eq {b : BitVec 32} (h : f32.classify (unpack32 b) = .signalling) :
    b = BitVec.ofBool (unpack32 b).sign ++ 0xFF#8 ++ 0#1 ++ b.extractLsb' 0 22 := by
  have hexp := Fmt.exp_of_nan (.inr h)
  have hbit := Fmt.quiet_bit_of_signalling h
  rw [show f32.expMax = 255 from rfl] at hexp
  rw [show f32.fbits = 23 from rfl] at hbit
  have hy : (b.extractLsb' 0 22).toNat = (unpack32 b).frac := by
    rw [toNat_extractLsb'_22]; omega
  conv_lhs => rw [← pack32_unpack32 b]
  apply BitVec.eq_of_toNat_eq
  simp only [pack32, toNat_append_eq_add, BitVec.toNat_ofNat, hexp, hy]
  have := unpack32_frac_lt b
  omega

/-- Settles O48, class by class: a finite value is exact in both formats, and a NaN keeps its fraction but for the quiet bit. -/
theorem singleRoundTripThroughDouble : Obligations.SingleRoundTripThroughDouble := by
  intro rc daz daz' fz um b
  refine ⟨fun hden hsig => ?_, fun h => ?_, fun h => ?_⟩
  · cases h : f32.classify (unpack32 b) with
    | denormal => exact absurd h hden
    | signalling => exact absurd h hsig
    | normal =>
      have hw := widened_f32ToF64 (daz := daz') (.inl h)
      exact (f64ToF32_of_widened hw ..).trans (f32OfValue_normal h hw.val ..)
    | zero =>
      simp only [f32ToF64, h, f64ToF32_zero]
      rw [← Fmt.classify_eq_zero h, pack32_unpack32]
    | infinity =>
      simp only [f32ToF64, h, f64ToF32_infinity]
      rw [show 255 = f32.expMax from rfl, ← Fmt.classify_eq_infinity h, pack32_unpack32]
    | quiet =>
      have hbit := Fmt.quiet_bit h
      have hexp := Fmt.exp_of_nan (.inl h)
      have hfrac := unpack32_frac_lt b
      rw [show f32.fbits = 23 from rfl] at hbit
      simp only [f32ToF64, h, f64ToF32_quieted rc daz fz um _ (Nat.mod_lt _ (Nat.two_pow_pos 22))]
      rw [show 255 = f32.expMax from rfl, ← hexp, show 2 ^ 22 + (unpack32 b).frac % 2 ^ 22 = (unpack32 b).frac by omega,
        pack32_unpack32]
  · have hw := widened_f32ToF64 (daz := false) (.inr ⟨h, rfl⟩)
    exact (f64ToF32_of_widened hw ..).trans (f32OfValue_denormal h hw.val ..)
  · simp only [f32ToF64, h, f64ToF32_quieted rc daz fz um _ (Nat.mod_lt _ (Nat.two_pow_pos 22))]
    conv_rhs => rw [signalling_eq h, ← quieted_eq_or]
    rw [← toNat_extractLsb'_22, pack32_quieted]

end Sys2Proof.Machine
end

section
/-! Prefix bytes that conflict (R94, R95, R97): the scan over prefix bytes, split in two, and what may be read only once. -/

namespace Sys2Proof

/-- A scan over prefix bytes goes on with what follows them. -/
theorem scanPrefixes_append {m64 : Bool} {pre : List Byte} (hpre : ∀ b ∈ pre, (prefixRole b).isSome = true)
    (p : Prefixes) (t : List Byte) :
    scanPrefixes m64 p (pre ++ t) = (scanPrefixes m64 p pre).bind fun q => scanPrefixes m64 q.1 t := by
  induction pre generalizing p with
  | nil => rfl
  | cons b pre ih =>
    obtain ⟨role, hb⟩ := Option.isSome_iff_exists.1 (hpre b List.mem_cons_self)
    rw [List.cons_append, scanPrefixes_of_role hb, scanPrefixes_of_role hb]
    cases p.read m64 role with
    | error r => rfl
    | ok p' => exact ih (fun x hx => hpre x (List.mem_cons_of_mem b hx)) p'

/-- Before prefix bytes and what follows them, the scan refuses, or the decoder goes on after the prefix bytes. -/
theorem decode_prefixes_append {m64 : Bool} {pre : List Byte} (hpre : ∀ b ∈ pre, (prefixRole b).isSome = true)
    {t : List Byte} (ht : ∀ p, scanPrefixes m64 p t = .ok (p, t)) :
    (∃ r, scanPrefixes m64 .empty pre = .error r ∧ decode m64 (pre ++ t) = .refused r) ∨
      ∃ p u, scanPrefixes m64 .empty pre = .ok (p, u) ∧ decode m64 (pre ++ t) = decodeRex m64 p t := by
  rw [decode, scanPrefixes_append hpre]
  cases scanPrefixes m64 .empty pre with
  | error r => exact .inl ⟨r, rfl, rfl⟩
  | ok q => exact .inr ⟨q.1, q.2, rfl, by simp [Except.bind, ht]⟩

/-- A kind of prefix byte that may be read only while a flag is clear, and then sets it: no more of them are read than the
flag counts. -/
theorem length_filter_le_of_scanPrefixes {m64 : Bool} {isByte : Byte → Bool} {flag : Prefixes → Bool}
    (hread : ∀ {b role p q}, prefixRole b = some role → p.read m64 role = .ok q →
      (isByte b).toNat + (flag p).toNat ≤ (flag q).toNat)
    {pre : List Byte} (hpre : ∀ b ∈ pre, (prefixRole b).isSome = true) {p q : Prefixes} {t : List Byte}
    (h : scanPrefixes m64 p pre = .ok (q, t)) : (pre.filter isByte).length + (flag p).toNat ≤ (flag q).toNat := by
  induction pre generalizing p with
  | nil =>
    cases h
    simp
  | cons b pre ih =>
    obtain ⟨role, hb⟩ := Option.isSome_iff_exists.1 (hpre b List.mem_cons_self)
    obtain ⟨p', hp, hs⟩ := (scanPrefixes_of_role_eq_ok_iff hb).1 h
    have htail := ih (fun x hx => hpre x (List.mem_cons_of_mem b hx)) hs
    have hhead := hread hb hp
    have hlen : ((b :: pre).filter isByte).length = (isByte b).toNat + (pre.filter isByte).length := by
      cases hb : isByte b <;> simp [hb, Nat.add_comm]
    omega

/-! ### The roles of the bytes (R93) -/

def PrefixRole.isMandatory : PrefixRole → Bool
  | .mandatory _ => true
  | _ => false

def PrefixRole.isSegment : PrefixRole → Bool
  | .segment _ => true
  | _ => false

theorem isMandatoryByte_eq (b : Byte) : Machine.isMandatoryByte b = (prefixRole b).any PrefixRole.isMandatory := by
  revert b
  decide

theorem isSegmentByte_eq (b : Byte) : Machine.isSegmentByte b = (prefixRole b).any PrefixRole.isSegment := by
  revert b
  decide

theorem prefixRole_eq_addressSize_iff {b : Byte} : prefixRole b = some .addressSize ↔ b = 0x67#8 := by
  revert b
  decide

/-- A prefix byte is no escape and no first byte of a VEX prefix. -/
theorem ne_escape_of_prefix {b : Byte} (h : (prefixRole b).isSome = true) : b ≠ 0x0F#8 ∧ b ≠ 0xC5#8 ∧ b ≠ 0xC4#8 := by
  refine ⟨?_, ?_, ?_⟩ <;> rintro rfl <;> cases h

/-! ### What may be read only once (R94, R95) -/

/-- A read sets the flag of its role, which must have been clear, and keeps every other one. -/
theorem Prefixes.flags_of_read {m64 : Bool} {p q : Prefixes} {role : PrefixRole} (h : p.read m64 role = .ok q) :
    role.isMandatory.toNat + p.mandatory.isSome.toNat ≤ q.mandatory.isSome.toNat ∧
      role.isSegment.toNat + p.seg.isSome.toNat ≤ q.seg.isSome.toNat ∧
      (decide (role = .addressSize)).toNat + (m64 && p.addr32).toNat ≤ (m64 && q.addr32).toNat := by
  cases role with
  | lock =>
    cases h
    simp [PrefixRole.isMandatory, PrefixRole.isSegment]
  | mandatory pp =>
    simp only [Prefixes.read] at h
    split_ifs at h with hp
    cases h
    simp [PrefixRole.isMandatory, PrefixRole.isSegment, hp]
  | segment s =>
    simp only [Prefixes.read] at h
    split_ifs at h with hp
    cases h
    simp [PrefixRole.isMandatory, PrefixRole.isSegment, hp]
  | addressSize =>
    simp only [Prefixes.read] at h
    split_ifs at h with hm hp
    cases h
    simp only [Bool.not_eq_true, Bool.not_eq_false'] at hm hp
    simp [PrefixRole.isMandatory, PrefixRole.isSegment, hm, hp]

section
variable {m64 : Bool} {pre : List Byte} (hpre : ∀ b ∈ pre, (prefixRole b).isSome = true) {p q : Prefixes} {t : List Byte}
  (h : scanPrefixes m64 p pre = .ok (q, t))
include hpre h

theorem length_filter_mandatory_le : (pre.filter Machine.isMandatoryByte).length ≤ 1 := by
  have hle := length_filter_le_of_scanPrefixes (isByte := Machine.isMandatoryByte) (flag := fun p => p.mandatory.isSome)
    (fun hb hp => by simpa [isMandatoryByte_eq, hb] using (Prefixes.flags_of_read hp).1) hpre h
  exact (Nat.le_add_right _ _).trans (hle.trans (Bool.toNat_le _))

theorem length_filter_segment_le : (pre.filter Machine.isSegmentByte).length ≤ 1 := by
  have hle := length_filter_le_of_scanPrefixes (isByte := Machine.isSegmentByte) (flag := fun p => p.seg.isSome)
    (fun hb hp => by simpa [isSegmentByte_eq, hb] using (Prefixes.flags_of_read hp).2.1) hpre h
  exact (Nat.le_add_right _ _).trans (hle.trans (Bool.toNat_le _))

/-- At most one address-size prefix in 64-bit mode, none outside it. -/
theorem count_addressSize_le : pre.count 0x67#8 ≤ m64.toNat := by
  have hle := length_filter_le_of_scanPrefixes (isByte := (· == 0x67#8)) (flag := fun p => m64 && p.addr32)
    (fun {b _ _ _} hb hp => by
      simpa [beq_eq_decide, ← prefixRole_eq_addressSize_iff, hb] using (Prefixes.flags_of_read hp).2.2) hpre h
  rw [← List.count_eq_length_filter] at hle
  refine (Nat.le_add_right _ _).trans (hle.trans ?_)
  cases m64 with
  | true => exact Bool.toNat_le _
  | false => exact Nat.le_refl 0

end

end Sys2Proof

namespace Sys2Proof.Machine

/-- A REX byte before another prefix byte is refused (R97). -/
theorem decode_rex_prefix {pre : List Byte} (hpre : ∀ b ∈ pre, isPrefixByte b = true) {rex b : Byte}
    (hrex : isRexByte rex = true) (hb : isPrefixByte b = true) (rest : List Byte) :
    ∃ r, decode true (pre ++ rex :: b :: rest) = .refused r := by
  have hrex : rex.extractLsb' 4 4 = 4#4 := of_decide_eq_true hrex
  have hb : (prefixRole b).isSome = true := hb
  obtain ⟨r, -, hd⟩ | ⟨p, u, -, hd⟩ := decode_prefixes_append hpre
    fun p => scanPrefixes_of_no_role (prefixRole_of_rex hrex) true p (b :: rest)
  · exact ⟨r, hd⟩
  · obtain ⟨h0f, hc5, hc4⟩ := ne_escape_of_prefix hb
    exact ⟨.rexNotLast, by simp [hd, decodeRex, hrex, decodeEscape, h0f, hc5, hc4, hb]⟩

/-- Settles O8: a scan that ends well has read at most one prefix byte of each kind, and no `67` outside 64-bit mode. -/
theorem conflictingPrefixesAreRefused : Obligations.ConflictingPrefixesAreRefused := by
  refine ⟨fun m64 pre rest hpre hconflict => ?_, fun pre rest rex b hpre hrex hb => decode_rex_prefix hpre hrex hb rest,
    fun s r hm hd => step_of_decodeAt_refused hm hd⟩
  rw [decode, scanPrefixes_append hpre]
  cases hs : scanPrefixes m64 .empty pre with
  | error r => exact ⟨r, rfl⟩
  | ok q =>
    have hmandatory := length_filter_mandatory_le hpre hs
    have hsegment := length_filter_segment_le hpre hs
    have haddr := count_addressSize_le hpre hs
    have hm64 := m64.toNat_le
    rcases hconflict with h | h | h | ⟨rfl, h⟩
    · omega
    · omega
    · omega
    · exact absurd (List.count_pos_iff.2 h) (Nat.not_lt.2 haddr)

end Sys2Proof.Machine
end

section
/-! The decoder's answers taken apart (steps 4 to 6 of R112), and the bits of an encoding that change nothing (R121). -/

namespace Sys2Proof

/-! ### What an answered instruction was read from (R112) -/

/-- What a legacy form's prefixes and REX byte say before the ModRM byte (R97). -/
def Prefixes.legacyHead (p : Prefixes) (rex : Option Byte) : Head :=
  { seg := p.seg, addr32 := p.addr32, ext := rex.isSome,
    r := (rex.getD 0#8).getLsbD 2, x := (rex.getD 0#8).getLsbD 1, b := (rex.getD 0#8).getLsbD 0 }

/-- What a VEX form's prefixes say before the ModRM byte; `rxb` are the stored bits (R99, R100, R102). -/
def Prefixes.vexHead (m64 : Bool) (p : Prefixes) (three : Bool) (rxb : BitVec 3) : Head :=
  { seg := p.seg, addr32 := p.addr32, ext := three,
    r := m64 && !rxb.getLsbD 2, x := m64 && !rxb.getLsbD 1, b := m64 && !rxb.getLsbD 0 }

theorem decodeOperands_eq_ok_iff {m64 : Bool} {f : Form} {h : Head} {invalid : Bool} {bytes rest : List Byte} {i : Instr} :
    decodeOperands m64 f h invalid bytes = .ok i rest ↔
      ∃ modrm t rm, bytes = modrm :: t ∧ invalid = false ∧
        parseRM m64 h.x h.b (modrm.extractLsb' 6 2) (modrm.extractLsb' 0 3) t = some (rm, rest) ∧
        f.build h (modrm.extractLsb' 3 3) rm = i := by
  constructor
  · intro hd
    unfold decodeOperands at hd
    split at hd
    · cases hd
    split at hd
    · cases hd
    · rename_i hrm
      split at hd
      · cases hd
      · rename_i hi
        cases hd
        exact ⟨_, _, _, rfl, by simpa using hi, hrm, rfl⟩
  · rintro ⟨modrm, t, rm, rfl, rfl, hrm, rfl⟩
    simp [decodeOperands, hrm]

theorem decodeLegacyOpcode_eq_ok_iff {m64 : Bool} {p : Prefixes} {rex : Option Byte} {bytes rest : List Byte} {i : Instr} :
    decodeLegacyOpcode m64 p rex bytes = .ok i rest ↔
      ∃ op t, bytes = op :: t ∧
        decodeKey false ((rex.getD 0#8).getLsbD 3) false (p.mandatory.getD 0) 1 op &&& i.fields.form.mask =
          i.fields.form.bits ∧
        decodeOperands m64 i.fields.form (p.legacyHead rex) p.lock t = .ok i rest := by
  constructor
  · intro hd
    unfold decodeLegacyOpcode at hd
    split at hd
    · cases hd
    dsimp only at hd
    split at hd
    · cases hd
    · rename_i hf
      have hform := form_of_decodeOperands hd
      rw [← hform] at hf hd
      exact ⟨_, _, rfl, selectForm_eq_some_iff.1 hf, hd⟩
  · rintro ⟨op, t, rfl, hf, hd⟩
    simp only [decodeLegacyOpcode, selectForm_eq_some_iff.2 hf]
    exact hd

theorem decodeVexOpcode_eq_ok_iff {m64 : Bool} {p : Prefixes} {misplaced three : Bool} {rxb : BitVec 3} {opMap : BitVec 5}
    {wvlp : Byte} {bytes rest : List Byte} {i : Instr} :
    decodeVexOpcode m64 p misplaced three rxb opMap wvlp bytes = .ok i rest ↔
      ∃ op t, bytes = op :: t ∧
        decodeKey true (m64 && wvlp.getLsbD 7) (wvlp.getLsbD 2) (wvlp.extractLsb' 0 2) opMap op &&& i.fields.form.mask =
          i.fields.form.bits ∧
        decodeOperands m64 i.fields.form (p.vexHead m64 three rxb) (misplaced || decide (wvlp.extractLsb' 3 4 ≠ 15)) t =
          .ok i rest := by
  constructor
  · intro hd
    unfold decodeVexOpcode at hd
    split at hd
    · cases hd
    split at hd
    · split at hd <;> cases hd
    · rename_i hf
      have hform := form_of_decodeOperands hd
      rw [← hform] at hf hd
      exact ⟨_, _, rfl, selectForm_eq_some_iff.1 hf, hd⟩
  · rintro ⟨op, t, rfl, hf, hd⟩
    simp only [decodeVexOpcode, selectForm_eq_some_iff.2 hf]
    exact hd

/-- An answer after prefix bytes is the answer to what follows them, and so for any text that begins with no prefix. -/
theorem decode_append_eq_ok {m64 : Bool} {pre t r : List Byte} {i : Instr}
    (hpre : ∀ b ∈ pre, (prefixRole b).isSome = true) (ht : ∀ p, scanPrefixes m64 p t = .ok (p, t))
    (h : decode m64 (pre ++ t) = .ok i r) :
    ∃ p, decodeRex m64 p t = .ok i r ∧
      ∀ t', (∀ q, scanPrefixes m64 q t' = .ok (q, t')) → decode m64 (pre ++ t') = decodeRex m64 p t' := by
  have happ := fun t => scanPrefixes_append (m64 := m64) hpre .empty t
  cases hs : scanPrefixes m64 .empty pre with
  | error e => simp [decode, happ, hs, Except.bind] at h
  | ok q =>
    have hd : ∀ t', (∀ q, scanPrefixes m64 q t' = .ok (q, t')) → decode m64 (pre ++ t') = decodeRex m64 q.1 t' :=
      fun t' ht' => by simp [decode, happ, hs, Except.bind, ht']
    exact ⟨q.1, (hd t ht).symm.trans h, hd⟩

/-! ### The decode key under the mask (R111) -/

/-- The bits of a decode key (R111). -/
theorem getLsbD_decodeKey (vex w l : Bool) (pp : BitVec 2) (opMap : BitVec 5) (op : Byte) {k : Nat} (hk : k < 18) :
    (decodeKey vex w l pp opMap op).getLsbD k =
      if k < 8 then op.getLsbD k else if k < 13 then opMap.getLsbD (k - 8) else if k < 15 then pp.getLsbD (k - 13)
      else if k = 15 then l else if k = 16 then w else vex := by
  simp only [decodeKey, BitVec.getLsbD_append, BitVec.getLsbD_ofBool, Nat.sub_sub]
  by_cases h : k = 17
  · subst h
    simp
  · grind

/-- Where the mask drops bit 16, `W` does not count. -/
theorem decodeKey_and_mask_w (vex w w' l : Bool) (pp : BitVec 2) (opMap : BitVec 5) (op : Byte) :
    decodeKey vex w l pp opMap op &&& 0x2FFFF#18 = decodeKey vex w' l pp opMap op &&& 0x2FFFF#18 := by
  apply BitVec.eq_of_getLsbD_eq
  intro k hk
  simp only [BitVec.getLsbD_and, getLsbD_decodeKey _ _ _ _ _ _ hk]
  by_cases h : k = 16
  · subst h
    simp
  · simp [h]

/-- Where the mask drops bit 15, `L` does not count. -/
theorem decodeKey_and_mask_l (vex w l l' : Bool) (pp : BitVec 2) (opMap : BitVec 5) (op : Byte) :
    decodeKey vex w l pp opMap op &&& 0x37FFF#18 = decodeKey vex w l' pp opMap op &&& 0x37FFF#18 := by
  apply BitVec.eq_of_getLsbD_eq
  intro k hk
  simp only [BitVec.getLsbD_and, getLsbD_decodeKey _ _ _ _ _ _ hk]
  by_cases h : k = 15
  · subst h
    simp
  · simp [h]

/-- A row that a VEX key selects is of the VEX shape (R111). -/
theorem vex_of_key {vex w l : Bool} {pp : BitVec 2} {opMap : BitVec 5} {op : Byte} {f : Form}
    (h : decodeKey vex w l pp opMap op &&& f.mask = f.bits) : f.vex = vex := by
  have hmask : f.mask.getLsbD 17 = true := by cases f <;> rfl
  rw [Form.vex, ← h, BitVec.getLsbD_and, hmask, Bool.and_true, getLsbD_decodeKey _ _ _ _ _ _ (by decide)]
  rfl

/-- The mandatory prefix that a row has (R94, R111). -/
theorem pp_of_key {vex w l : Bool} {pp : BitVec 2} {opMap : BitVec 5} {op : Byte} {f : Form}
    (h : decodeKey vex w l pp opMap op &&& f.mask = f.bits) : f.pp = pp := by
  have hmask : ∀ k < 2, f.mask.getLsbD (13 + k) = true := by cases f <;> decide
  apply BitVec.eq_of_getLsbD_eq
  intro k hk
  rw [Form.pp, ← h, BitVec.getLsbD_extractLsb', BitVec.getLsbD_and, hmask k hk, getLsbD_decodeKey _ _ _ _ _ _ (by omega),
    if_neg (by omega), if_neg (by omega), if_pos (by omega), Nat.add_sub_cancel_left]
  simp [hk]

end Sys2Proof

namespace Sys2Proof.Machine

/-! ### The ignored fields (R121) -/

theorem mask_of_no_gprDestination {i : Instr} (h : gprDestination i = none) : i.fields.form.mask = 0x2FFFF#18 := by
  cases i with
  | cvtsd2si32 | cvtsd2si64 | vcvtsd2si32 | vcvtsd2si64 => cases h
  | _ => rfl

theorem mask_of_vex_gprDestination {i : Instr} (h : (gprDestination i).isSome = true) (hv : i.fields.form.vex = true) :
    i.fields.form.mask = 0x37FFF#18 := by
  cases i with
  | vcvtsd2si32 | vcvtsd2si64 => rfl
  | cvtsd2si32 => exact absurd (show Form.vex .cvtsd2si32 = true from hv) (by decide)
  | cvtsd2si64 => exact absurd (show Form.vex .cvtsd2si64 = true from hv) (by decide)
  | _ => cases h
theorem hasSib_build (f : Form) (h : Head) (reg : BitVec 3) (rm : RawRM) :
    hasSib (f.build h reg rm).fields.rm = hasSib (rm.vec h.b) := by
  cases f <;> cases rm <;> rfl

theorem build_x (f : Form) (h : Head) (x : Bool) (reg : BitVec 3) (rm : RawRM) :
    f.build { h with x := x } reg rm = f.build h reg rm := by
  cases f <;> rfl

theorem parseRM_x {m64 x b : Bool} {mod : BitVec 2} {rm : BitVec 3} {t r : List Byte} {q : RawRM}
    (h : parseRM m64 x b mod rm t = some (q, r)) (hq : hasSib (q.vec b) = false) (x' : Bool) :
    parseRM m64 x' b mod rm t = some (q, r) := by
  unfold parseRM at h ⊢
  by_cases hsib : mod ≠ 3 ∧ rm = 4
  · exfalso
    rw [if_neg hsib.1, if_pos hsib.2] at h
    simp only [Option.map_eq_some_iff, Prod.mk.injEq, Prod.exists] at h
    obtain ⟨m, u, hs, rfl, rfl⟩ := h
    unfold parseSib at hs
    split at hs
    · cases hs
    dsimp only at hs
    split at hs
    all_goals
      simp only [Option.map_eq_some_iff, Prod.mk.injEq, Prod.exists] at hs
      obtain ⟨_, _, -, rfl, rfl⟩ := hs
      cases hq
  · split_ifs at h ⊢ <;> first | exact h | tauto

theorem build_r {f : Form} {h : Head} {reg : BitVec 3} {rm : RawRM} (hm : (mmxDestination (f.build h reg rm)).isSome = true)
    (r : Bool) : f.build { h with r := r } reg rm = f.build h reg rm := by
  cases f with
  | cvtpd2pi | cvtps2pi => rfl
  | _ => cases hm

/-- A register operand of an MMX form does not depend on `B` (R106). -/
theorem build_b {f : Form} {h : Head} {reg : BitVec 3} {rm : RawRM} {e : LegacyEnc} {d : VecReg} {n : MmxReg}
    (hi : f.build h reg rm = .cvtpi2pd e d (.reg n) ∨ f.build h reg rm = .cvtpi2ps e d (.reg n)) :
    (∃ q, rm = .reg q) ∧ ∀ b, f.build { h with b := b } reg rm = f.build h reg rm := by
  cases f with
  | cvtpi2pd | cvtpi2ps =>
    refine ⟨?_, fun _ => rfl⟩
    cases rm with
    | reg q => exact ⟨q, rfl⟩
    | mem m => rcases hi with hi | hi <;> cases hi
  | _ => rcases hi with hi | hi <;> cases hi

theorem parseRM_b {m64 x b : Bool} {mod : BitVec 2} {rm q : BitVec 3} {t r : List Byte}
    (h : parseRM m64 x b mod rm t = some (.reg q, r)) (b' : Bool) : parseRM m64 x b' mod rm t = some (.reg q, r) := by
  unfold parseRM at h ⊢
  split_ifs at h ⊢ with hmod
  · exact h
  all_goals simp at h

/-- Two heads under which the operands are read and put together alike. -/
theorem decodeOperands_congr {m64 : Bool} {f : Form} {h h' : Head} {invalid : Bool} {bytes r : List Byte} {i : Instr}
    (hd : decodeOperands m64 f h invalid bytes = .ok i r)
    (hrm : ∀ mod rm reg t q, parseRM m64 h.x h.b mod rm t = some (q, r) → f.build h reg q = i →
      parseRM m64 h'.x h'.b mod rm t = some (q, r) ∧ f.build h' reg q = i) :
    decodeOperands m64 f h' invalid bytes = .ok i r := by
  obtain ⟨modrm, t, q, rfl, hinv, hparse, hbuild⟩ := decodeOperands_eq_ok_iff.1 hd
  obtain ⟨hparse', hbuild'⟩ := hrm _ _ _ _ _ hparse hbuild
  exact decodeOperands_eq_ok_iff.2 ⟨modrm, t, q, rfl, hinv, hparse', hbuild'⟩

section
variable {m64 : Bool} {f : Form} {h : Head} {invalid : Bool} {bytes r : List Byte} {i : Instr}
  (hd : decodeOperands m64 f h invalid bytes = .ok i r)
include hd

/-- `X` extends a SIB index alone (R97, R108). -/
theorem decodeOperands_x (hsib : hasSib i.fields.rm = false) (x : Bool) :
    decodeOperands m64 f { h with x := x } invalid bytes = .ok i r := by
  refine decodeOperands_congr hd fun mod rm reg t q hparse hbuild => ⟨parseRM_x hparse ?_ x, ?_⟩
  · rwa [← hbuild, hasSib_build] at hsib
  · rw [build_x, hbuild]

/-- `R` extends no MMX register number (R24, R105). -/
theorem decodeOperands_r (hmmx : (mmxDestination i).isSome = true) (x : Bool) :
    decodeOperands m64 f { h with r := x } invalid bytes = .ok i r := by
  refine decodeOperands_congr hd fun mod rm reg t q hparse hbuild => ⟨hparse, ?_⟩
  rw [build_r (by rwa [hbuild]), hbuild]

/-- `B` extends no MMX register number (R24, R106). -/
theorem decodeOperands_b {e : LegacyEnc} {d : VecReg} {n : MmxReg}
    (hi : i = .cvtpi2pd e d (.reg n) ∨ i = .cvtpi2ps e d (.reg n)) (b : Bool) :
    decodeOperands m64 f { h with b := b } invalid bytes = .ok i r := by
  refine decodeOperands_congr hd fun mod rm reg t q hparse hbuild => ?_
  rw [← hbuild] at hi ⊢
  obtain ⟨⟨q, rfl⟩, hb⟩ := build_b hi
  exact ⟨parseRM_b hparse b, hb b⟩

end

/-! ### A flipped bit (R121) -/

/-- A REX byte before the escape (R97, R112). -/
theorem decodeRex_rex {p : Prefixes} {rex : Byte} (hrex : isRexByte rex = true) (rest : List Byte) :
    decodeRex true p (rex :: 0x0F#8 :: rest) = decodeLegacyOpcode true p (some rex) rest := by
  have hrex : rex.extractLsb' 4 4 = 4#4 := of_decide_eq_true hrex
  simp [decodeRex, decodeEscape, hrex]

section
variable {pre rest r : List Byte} {rex : Byte} {i : Instr} (hpre : ∀ x ∈ pre, isPrefixByte x = true)
  (hrex : isRexByte rex = true) (h : decode true (pre ++ rex :: 0x0F#8 :: rest) = .ok i r)
include hpre hrex h

/-- Another REX byte whose `W` selects the row as well, and whose `R`, `X` and `B` give the same operands. -/
theorem decode_rex_congr {rex' : Byte} (hrex' : isRexByte rex' = true)
    (hkey : ∀ pp op, decodeKey false (rex'.getLsbD 3) false pp 1 op &&& i.fields.form.mask =
      decodeKey false (rex.getLsbD 3) false pp 1 op &&& i.fields.form.mask)
    (hops : ∀ (p : Prefixes) (t : List Byte), decodeOperands true i.fields.form (p.legacyHead (some rex)) p.lock t = .ok i r →
      decodeOperands true i.fields.form (p.legacyHead (some rex')) p.lock t = .ok i r) :
    decode true (pre ++ rex' :: 0x0F#8 :: rest) = .ok i r := by
  have hscan : ∀ {rex : Byte}, isRexByte rex = true → ∀ p,
      scanPrefixes true p (rex :: 0x0F#8 :: rest) = .ok (p, rex :: 0x0F#8 :: rest) :=
    fun hrex p => scanPrefixes_of_no_role (prefixRole_of_rex (of_decide_eq_true hrex)) ..
  obtain ⟨p, hd, hcongr⟩ := decode_append_eq_ok hpre (hscan hrex) h
  rw [decodeRex_rex hrex] at hd
  obtain ⟨op, t, rfl, hf, ho⟩ := decodeLegacyOpcode_eq_ok_iff.1 hd
  rw [hcongr _ (hscan hrex'), decodeRex_rex hrex']
  exact decodeLegacyOpcode_eq_ok_iff.2 ⟨op, t, rfl, (hkey _ _).trans hf, hops p t ho⟩

theorem decode_rex_flip_w (hg : gprDestination i = none) :
    decode true (pre ++ (rex ^^^ 0x08#8) :: 0x0F#8 :: rest) = .ok i r := by
  have hbits : ∀ b : Byte, isRexByte b = true → isRexByte (b ^^^ 0x08#8) = true ∧
      (b ^^^ 0x08#8).getLsbD 2 = b.getLsbD 2 ∧ (b ^^^ 0x08#8).getLsbD 1 = b.getLsbD 1 ∧
      (b ^^^ 0x08#8).getLsbD 0 = b.getLsbD 0 := by decide
  obtain ⟨hrex', h2, h1, h0⟩ := hbits rex hrex
  refine decode_rex_congr hpre hrex h hrex' (fun pp op => ?_) fun p t ho => ?_
  · rw [mask_of_no_gprDestination hg]
    exact decodeKey_and_mask_w ..
  · simpa only [Prefixes.legacyHead, Option.getD_some, Option.isSome_some, h2, h1, h0] using ho

theorem decode_rex_flip_x (hsib : hasSib i.fields.rm = false) :
    decode true (pre ++ (rex ^^^ 0x02#8) :: 0x0F#8 :: rest) = .ok i r := by
  have hbits : ∀ b : Byte, isRexByte b = true → isRexByte (b ^^^ 0x02#8) = true ∧
      (b ^^^ 0x02#8).getLsbD 3 = b.getLsbD 3 ∧ (b ^^^ 0x02#8).getLsbD 2 = b.getLsbD 2 ∧
      (b ^^^ 0x02#8).getLsbD 0 = b.getLsbD 0 := by decide
  obtain ⟨hrex', h3, h2, h0⟩ := hbits rex hrex
  refine decode_rex_congr hpre hrex h hrex' (fun pp op => by rw [h3]) fun p t ho => ?_
  have hx := decodeOperands_x ho hsib ((rex ^^^ 0x02#8).getLsbD 1)
  simpa only [Prefixes.legacyHead, Option.getD_some, Option.isSome_some, h2, h0] using hx

theorem decode_rex_flip_r (hmmx : (mmxDestination i).isSome = true) :
    decode true (pre ++ (rex ^^^ 0x04#8) :: 0x0F#8 :: rest) = .ok i r := by
  have hbits : ∀ b : Byte, isRexByte b = true → isRexByte (b ^^^ 0x04#8) = true ∧
      (b ^^^ 0x04#8).getLsbD 3 = b.getLsbD 3 ∧ (b ^^^ 0x04#8).getLsbD 1 = b.getLsbD 1 ∧
      (b ^^^ 0x04#8).getLsbD 0 = b.getLsbD 0 := by decide
  obtain ⟨hrex', h3, h1, h0⟩ := hbits rex hrex
  refine decode_rex_congr hpre hrex h hrex' (fun pp op => by rw [h3]) fun p t ho => ?_
  have hr := decodeOperands_r ho hmmx ((rex ^^^ 0x04#8).getLsbD 2)
  simpa only [Prefixes.legacyHead, Option.getD_some, Option.isSome_some, h1, h0] using hr

theorem decode_rex_flip_b {e : LegacyEnc} {d : VecReg} {n : MmxReg}
    (hi : i = .cvtpi2pd e d (.reg n) ∨ i = .cvtpi2ps e d (.reg n)) :
    decode true (pre ++ (rex ^^^ 0x01#8) :: 0x0F#8 :: rest) = .ok i r := by
  have hbits : ∀ b : Byte, isRexByte b = true → isRexByte (b ^^^ 0x01#8) = true ∧
      (b ^^^ 0x01#8).getLsbD 3 = b.getLsbD 3 ∧ (b ^^^ 0x01#8).getLsbD 2 = b.getLsbD 2 ∧
      (b ^^^ 0x01#8).getLsbD 1 = b.getLsbD 1 := by decide
  obtain ⟨hrex', h3, h2, h1⟩ := hbits rex hrex
  refine decode_rex_congr hpre hrex h hrex' (fun pp op => by rw [h3]) fun p t ho => ?_
  have hb := decodeOperands_b ho hi ((rex ^^^ 0x01#8).getLsbD 0)
  simpa only [Prefixes.legacyHead, Option.getD_some, Option.isSome_some, h2, h1] using hb

end

/-- A VEX prefix after legacy prefixes alone (R112). -/
theorem decodeRex_vex (m64 : Bool) (p : Prefixes) (t : List Byte) :
    decodeRex m64 p (0xC5#8 :: t) = decodeVex2 m64 p none t ∧ decodeRex m64 p (0xC4#8 :: t) = decodeVex3 m64 p none t := by
  constructor <;> simp [decodeRex, decodeEscape]

section
variable {m64 : Bool} {pre rest r : List Byte} {b1 b2 : Byte} {i : Instr} (hpre : ∀ x ∈ pre, isPrefixByte x = true)
include hpre

/-- Another three-byte prefix that selects the row as well and gives the same operands. -/
theorem decode_vex3_congr (h : decode m64 (pre ++ 0xC4#8 :: b1 :: b2 :: rest) = .ok i r) {b1' b2' : Byte}
    (hles : m64 = true ∨ b1' = b1) (hmap : b1'.extractLsb' 0 5 = b1.extractLsb' 0 5)
    (hvvvv : b2'.extractLsb' 3 4 = b2.extractLsb' 3 4)
    (hkey : ∀ op, i.fields.form.vex = true →
      decodeKey true (m64 && b2'.getLsbD 7) (b2'.getLsbD 2) (b2'.extractLsb' 0 2) (b1.extractLsb' 0 5) op &&&
          i.fields.form.mask =
        decodeKey true (m64 && b2.getLsbD 7) (b2.getLsbD 2) (b2.extractLsb' 0 2) (b1.extractLsb' 0 5) op &&&
          i.fields.form.mask)
    (hops : ∀ (p : Prefixes) (invalid : Bool) (t : List Byte),
      decodeOperands m64 i.fields.form (p.vexHead m64 true (b1.extractLsb' 5 3)) invalid t = .ok i r →
      decodeOperands m64 i.fields.form (p.vexHead m64 true (b1'.extractLsb' 5 3)) invalid t = .ok i r) :
    decode m64 (pre ++ 0xC4#8 :: b1' :: b2' :: rest) = .ok i r := by
  obtain ⟨p, hd, hcongr⟩ := decode_append_eq_ok hpre (fun p => scanPrefixes_of_no_role rfl ..) h
  rw [hcongr _ fun p => scanPrefixes_of_no_role rfl .., (decodeRex_vex ..).2]
  rw [(decodeRex_vex ..).2] at hd
  simp only [decodeVex3] at hd ⊢
  split at hd
  · cases hd
  · rename_i hm
    have hm' : ¬ (!m64 && decide (b1'.extractLsb' 6 2 ≠ 3)) = true := by
      rcases hles with rfl | rfl
      · exact Bool.false_ne_true
      · exact hm
    obtain ⟨op, t, rfl, hf, ho⟩ := decodeVexOpcode_eq_ok_iff.1 hd
    rw [if_neg hm', hmap]
    exact decodeVexOpcode_eq_ok_iff.2 ⟨op, t, rfl, (hkey op (vex_of_key hf)).trans hf, by
      rw [hvvvv]
      exact hops p _ t ho⟩

theorem decode_vex3_flip_w (h : decode m64 (pre ++ 0xC4#8 :: b1 :: b2 :: rest) = .ok i r) (hg : gprDestination i = none) :
    decode m64 (pre ++ 0xC4#8 :: b1 :: (b2 ^^^ 0x80#8) :: rest) = .ok i r := by
  have hbits : ∀ b : Byte, (b ^^^ 0x80#8).extractLsb' 3 4 = b.extractLsb' 3 4 ∧
      (b ^^^ 0x80#8).getLsbD 2 = b.getLsbD 2 ∧ (b ^^^ 0x80#8).extractLsb' 0 2 = b.extractLsb' 0 2 := by decide
  obtain ⟨hvvvv, hl, hpp⟩ := hbits b2
  refine decode_vex3_congr hpre h (.inr rfl) rfl hvvvv (fun op _ => ?_) fun _ _ _ ho => ho
  rw [hl, hpp, mask_of_no_gprDestination hg]
  exact decodeKey_and_mask_w ..

theorem decode_vex3_flip_l (h : decode m64 (pre ++ 0xC4#8 :: b1 :: b2 :: rest) = .ok i r)
    (hg : (gprDestination i).isSome = true) : decode m64 (pre ++ 0xC4#8 :: b1 :: (b2 ^^^ 0x04#8) :: rest) = .ok i r := by
  have hbits : ∀ b : Byte, (b ^^^ 0x04#8).extractLsb' 3 4 = b.extractLsb' 3 4 ∧
      (b ^^^ 0x04#8).getLsbD 7 = b.getLsbD 7 ∧ (b ^^^ 0x04#8).extractLsb' 0 2 = b.extractLsb' 0 2 := by decide
  obtain ⟨hvvvv, hw, hpp⟩ := hbits b2
  refine decode_vex3_congr hpre h (.inr rfl) rfl hvvvv (fun op hv => ?_) fun _ _ _ ho => ho
  rw [hw, hpp, mask_of_vex_gprDestination hg hv]
  exact decodeKey_and_mask_l ..

theorem decode_vex3_flip_x (h : decode true (pre ++ 0xC4#8 :: b1 :: b2 :: rest) = .ok i r)
    (hsib : hasSib i.fields.rm = false) : decode true (pre ++ 0xC4#8 :: (b1 ^^^ 0x40#8) :: b2 :: rest) = .ok i r := by
  have hbits : ∀ b : Byte, (b ^^^ 0x40#8).extractLsb' 0 5 = b.extractLsb' 0 5 ∧
      ((b ^^^ 0x40#8).extractLsb' 5 3).getLsbD 2 = (b.extractLsb' 5 3).getLsbD 2 ∧
      ((b ^^^ 0x40#8).extractLsb' 5 3).getLsbD 0 = (b.extractLsb' 5 3).getLsbD 0 := by decide
  obtain ⟨hmap, hr, hb⟩ := hbits b1
  refine decode_vex3_congr hpre h (.inl rfl) hmap rfl (fun _ _ => rfl) fun p invalid t ho => ?_
  have hx := decodeOperands_x ho hsib (true && !((b1 ^^^ 0x40#8).extractLsb' 5 3).getLsbD 1)
  simpa only [Prefixes.vexHead, hr, hb] using hx

theorem decode_vex2_flip_l (h : decode m64 (pre ++ 0xC5#8 :: b1 :: rest) = .ok i r)
    (hg : (gprDestination i).isSome = true) : decode m64 (pre ++ 0xC5#8 :: (b1 ^^^ 0x04#8) :: rest) = .ok i r := by
  have hbits : ∀ b : Byte, (b ^^^ 0x04#8).extractLsb' 6 2 = b.extractLsb' 6 2 ∧
      (b ^^^ 0x04#8).extractLsb' 7 1 = b.extractLsb' 7 1 ∧
      (0#1 ++ (b ^^^ 0x04#8).extractLsb' 0 7 : Byte).extractLsb' 3 4 = (0#1 ++ b.extractLsb' 0 7 : Byte).extractLsb' 3 4 ∧
      (0#1 ++ (b ^^^ 0x04#8).extractLsb' 0 7 : Byte).getLsbD 7 = (0#1 ++ b.extractLsb' 0 7 : Byte).getLsbD 7 ∧
      (0#1 ++ (b ^^^ 0x04#8).extractLsb' 0 7 : Byte).extractLsb' 0 2 = (0#1 ++ b.extractLsb' 0 7 : Byte).extractLsb' 0 2 := by
    decide
  obtain ⟨hlds, hr, hvvvv, hw, hpp⟩ := hbits b1
  obtain ⟨p, hd, hcongr⟩ := decode_append_eq_ok hpre (fun p => scanPrefixes_of_no_role rfl ..) h
  rw [hcongr _ fun p => scanPrefixes_of_no_role rfl .., (decodeRex_vex ..).1]
  rw [(decodeRex_vex ..).1] at hd
  simp only [decodeVex2, hlds, hr] at hd ⊢
  split at hd
  · cases hd
  · rename_i hm
    obtain ⟨op, t, rfl, hf, ho⟩ := decodeVexOpcode_eq_ok_iff.1 hd
    rw [if_neg hm]
    refine decodeVexOpcode_eq_ok_iff.2 ⟨op, t, rfl, ?_, by rwa [hvvvv]⟩
    rw [← hf, hw, hpp, mask_of_vex_gprDestination hg (vex_of_key hf)]
    exact decodeKey_and_mask_l ..

end

/-- Settles O10: `W` and `L` are dropped by the mask of a row that ignores them, `X` extends a SIB index alone, `R` and `B`
no MMX register number. -/
theorem ignoredEncodingBitsChangeNothing : Obligations.IgnoredEncodingBitsChangeNothing := by
  refine ⟨fun m64 pre b1 b2 rest i r hpre h => ⟨decode_vex3_flip_w hpre h, decode_vex3_flip_l hpre h, ?_⟩,
    fun m64 pre b1 rest i r hpre h => decode_vex2_flip_l hpre h,
    fun pre rex rest i r hpre hrex h => ⟨decode_rex_flip_w hpre hrex h, decode_rex_flip_x hpre hrex h,
      decode_rex_flip_r hpre hrex h, fun _ _ _ => decode_rex_flip_b hpre hrex h⟩,
    fun s m g addr32 len h64 hfs hgs => ?_⟩
  · rintro rfl
    exact decode_vex3_flip_x hpre h
  · have hseg : Mem.segment s.mode64 m (some g) = Mem.segment s.mode64 m none := by
      rw [h64]
      exact segment_mode64_ignored ⟨hfs, hgs⟩
    exact ⟨by rw [Mem.linear, Mem.linear, hseg], hseg⟩

end Sys2Proof.Machine
end

section
/-! What the decoder consumes, and that what it answers is well formed (R92): stage by stage, from the displacement back to the
legacy prefixes. -/

namespace Sys2Proof

/-! ### Bytes consumed -/

/-- `rest` is what `n` bytes leave of `bytes`. -/
def Consumes (bytes rest : List Byte) (n : Nat) : Prop := ∃ u, bytes = u ++ rest ∧ u.length = n

theorem Consumes.zero (t : List Byte) : Consumes t t 0 := ⟨[], rfl, rfl⟩

theorem Consumes.cons {t rest : List Byte} {n : Nat} (h : Consumes t rest n) (b : Byte) :
    Consumes (b :: t) rest (n + 1) := by
  obtain ⟨u, rfl, rfl⟩ := h
  exact ⟨b :: u, rfl, rfl⟩

theorem consumes_iff {bytes rest : List Byte} {n : Nat} :
    Consumes bytes rest n ↔ n ≤ bytes.length ∧ rest = bytes.drop n := by
  constructor
  · rintro ⟨u, rfl, rfl⟩
    simp
  · rintro ⟨hn, rfl⟩
    exact ⟨bytes.take n, (List.take_append_drop n bytes).symm, by simpa using hn⟩

/-! ### Register numbers (R97, R105, R106) -/

theorem reg4_val (ext : Bool) (field : BitVec 3) : (reg4 ext field).val = 8 * ext.toNat + field.toNat := by
  revert ext field
  decide

theorem regOk_reg4 {ext e : Bool} (h : e = true → ext = true) (field : BitVec 3) : regOk ext (reg4 e field) = true := by
  have hlt := field.isLt
  cases e with
  | true => simp [regOk, h rfl]
  | false => simp [regOk, reg4_val, hlt]

theorem reg4_mod (e : Bool) (field : BitVec 3) : (reg4 e field).val % 8 = field.toNat := by
  have hlt := field.isLt
  rw [reg4_val]
  omega

theorem indexOk_sibIndex {ext x : Bool} (h : x = true → ext = true) (field : BitVec 3) (scale : BitVec 2) :
    indexOk ext (sibIndex x field scale) = true := by
  unfold sibIndex
  split_ifs with h4
  · rfl
  · have hval : (reg4 x field).val ≠ 4 := fun hv => h4 (Fin.ext hv)
    simp [indexOk, regOk_reg4 h, hval]

/-! ### Displacements, SIB and ModRM (R107 to R109) -/

theorem consumes_of_takeDisp32 {t rest : List Byte} {d : BitVec 32} (h : takeDisp32 t = some (d, rest)) :
    Consumes t rest 4 := by
  unfold takeDisp32 at h
  split at h
  · cases h
    exact ((((Consumes.zero _).cons _).cons _).cons _).cons _
  · cases h

/-- The displacement beside a base takes its length, and is absent only for `mod = 00b`. -/
theorem consumes_of_takeDisp {mod : BitVec 2} {t rest : List Byte} {d : Disp} (h : takeDisp mod t = some (d, rest)) :
    Consumes t rest d.len ∧ (d = .none → mod = 0) := by
  unfold takeDisp at h
  split at h
  · rename_i hmod
    cases h
    exact ⟨.zero _, fun _ => hmod⟩
  split at h
  · split at h
    · cases h
    · cases h
      exact ⟨(Consumes.zero _).cons _, nofun⟩
  · simp only [Option.map_eq_some_iff, Prod.mk.injEq, Prod.exists] at h
    obtain ⟨v, u, hv, rfl, rfl⟩ := h
    exact ⟨consumes_of_takeDisp32 hv, nofun⟩

/-- A displacement beside a base field that does not announce "no base". -/
theorem okWithBase_of_takeDisp {mod : BitVec 2} {t rest : List Byte} {d : Disp} (h : takeDisp mod t = some (d, rest))
    {e : Bool} {field : BitVec 3} (hbase : ¬ (mod = 0 ∧ field = 5)) : d.okWithBase (reg4 e field) = true := by
  simp only [Disp.okWithBase, reg4_mod, Bool.or_eq_true, decide_eq_true_eq]
  by_cases hd : d = .none
  · refine .inr fun h5 => hbase ⟨(consumes_of_takeDisp h).2 hd, BitVec.eq_of_toNat_eq h5⟩
  · exact .inl hd

section
variable {m64 ext x b : Bool} (hx : x = true → ext = true) (hb : b = true → ext = true) {mod : BitVec 2}
  {t rest : List Byte}
include hx hb

/-- The SIB byte and the displacement after it. -/
theorem consumes_of_parseSib {m : Mem} (h : parseSib x b mod t = some (m, rest)) :
    Consumes t rest (RM.mem m : RM 16).len ∧ m.wf m64 ext = true := by
  unfold parseSib at h
  split at h
  · cases h
  dsimp only at h
  split at h
  · simp only [Option.map_eq_some_iff, Prod.mk.injEq, Prod.exists] at h
    obtain ⟨d, u, hd, rfl, rfl⟩ := h
    exact ⟨(consumes_of_takeDisp32 hd).cons _, indexOk_sibIndex hx ..⟩
  · rename_i hbase
    simp only [Option.map_eq_some_iff, Prod.mk.injEq, Prod.exists] at h
    obtain ⟨d, u, hd, rfl, rfl⟩ := h
    refine ⟨?_, by simp [Mem.wf, okWithBase_of_takeDisp hd hbase, regOk_reg4 hb, indexOk_sibIndex hx]⟩
    rw [RM.len, Nat.add_comm]
    exact (consumes_of_takeDisp hd).1.cons _

/-- What follows a ModRM byte. -/
theorem consumes_of_parseRM {rm : BitVec 3} {q : RawRM} (h : parseRM m64 x b mod rm t = some (q, rest)) :
    Consumes t rest (q.vec b).len ∧ rmVecWf m64 ext (q.vec b) = true := by
  unfold parseRM at h
  split at h
  · cases h
    exact ⟨.zero _, regOk_reg4 hb rm⟩
  split at h
  · simp only [Option.map_eq_some_iff, Prod.mk.injEq, Prod.exists] at h
    obtain ⟨m, u, hm, rfl, rfl⟩ := h
    exact consumes_of_parseSib hx hb hm
  rename_i h4
  split at h
  · simp only [Option.map_eq_some_iff, Prod.mk.injEq, Prod.exists] at h
    obtain ⟨d, u, hd, rfl, rfl⟩ := h
    have hc := consumes_of_takeDisp32 hd
    cases m64 with
    | true => exact ⟨hc, rfl⟩
    | false => exact ⟨hc, rfl⟩
  · rename_i hbase
    simp only [Option.map_eq_some_iff, Prod.mk.injEq, Prod.exists] at h
    obtain ⟨d, u, hd, rfl, rfl⟩ := h
    have hwf : (Mem.based (reg4 b rm) d).wf m64 ext = true := by
      have hne : (reg4 b rm).val % 8 ≠ 4 := fun hv => h4 (BitVec.eq_of_toNat_eq ((reg4_mod b rm).symm.trans hv))
      rw [Mem.wf, okWithBase_of_takeDisp hd hbase, regOk_reg4 hb]
      simpa using hne
    exact ⟨(consumes_of_takeDisp hd).1, hwf⟩

end

/-! ### Well-formed instructions from their fields -/

theorem legacyWf_of_encodable {m64 : Bool} {f : Form} {e : LegacyEnc} {d : Fin 16} {src : RM 16} (hf : f.vex = false)
    (h : (legacyFields f e d src).Encodable m64) : legacyWf m64 e d src = true := by
  have hrex : e.rex = true → m64 = true := h.rex hf
  have haddr : e.addr32 = true → m64 = true := h.addr32
  have hext : (m64 && e.rex) = e.rex := Bool.and_eq_right_iff_imp.2 hrex
  have hd : regOk e.rex d = true := by simpa [legacyFields, hf, hext] using h.reg
  have hs : rmVecWf m64 e.rex src = true := by simpa [legacyFields, hext] using h.rm
  have he : e.wf m64 = true := by
    cases hm : m64 with
    | true => rfl
    | false => simp_all [LegacyEnc.wf]
  simp [legacyWf, he, hd, hs]

theorem vexWf_of_encodable {m64 : Bool} {f : Form} {e : VexEnc} {d : Fin 16} {src : RM 16} (hf : f.vex = true)
    (h : (vexFields f e d src).Encodable m64) : vexWf m64 e d src = true := by
  have haddr : e.addr32 = true → m64 = true := h.addr32
  have hd : regOk m64 d = true := by simpa [vexFields, hf] using h.reg
  have hs : rmVecWf m64 (m64 && e.three) src = true := h.rm
  have he : e.wf m64 = true := by
    cases hm : m64 with
    | true => rfl
    | false => simp_all [VexEnc.wf]
  simp [vexWf, he, hd, hs]

theorem legacyMmxSrcWf_of_encodable {m64 : Bool} {f : Form} {e : LegacyEnc} {d : Fin 16} {src : RM 8} (hf : f.vex = false)
    (h : (legacyFields f e d (rmOfMmx src)).Encodable m64) : legacyMmxSrcWf m64 e d src = true := by
  have hwf := legacyWf_of_encodable hf h
  cases src with
  | reg r => simpa [legacyMmxSrcWf, legacyWf, rmMmxWf, rmOfMmx, rmVecWf, regOk_mmxReg4] using hwf
  | mem m => exact hwf

/-- Fields that an encoding exists for belong to a well-formed instruction. -/
theorem Instr.wf_of_encodable {m64 : Bool} {i : Instr} (h : i.fields.Encodable m64) : i.wf m64 = true := by
  cases i with
  | cvtdq2pd | cvtdq2ps | cvtpd2dq | cvtpd2ps | cvtps2dq | cvtps2pd | cvtsd2si32 => exact legacyWf_of_encodable rfl h
  | cvtpd2pi | cvtps2pi =>
    have hwf := legacyWf_of_encodable rfl h
    simpa [Instr.wf, legacyMmxDstWf, legacyWf, regOk_mmxReg4] using hwf
  | cvtpi2pd | cvtpi2ps => exact legacyMmxSrcWf_of_encodable rfl h
  | cvtsd2si64 e d src =>
    obtain ⟨hm, hrex⟩ : m64 = true ∧ e.rex = true := h.wide (show Form.w .cvtsd2si64 = true from rfl)
    simp [Instr.wf, hm, hrex, hm ▸ legacyWf_of_encodable rfl h]
  | vcvtsd2si64 e d src =>
    obtain ⟨hm, hthree⟩ : m64 = true ∧ e.three = true := h.wide (show Form.w .vcvtsd2si64 = true from rfl)
    simp [Instr.wf, hm, hthree, hm ▸ vexWf_of_encodable rfl h]
  | _ => exact vexWf_of_encodable rfl h

end Sys2Proof
end

section
/-! What the decoder answers, stage by stage: the instruction is well formed, and the bytes read are those that `ilen` counts
(R92). -/

namespace Sys2Proof

/-! ### The instruction that is put together (R105, R106) -/

section
variable (f : Form) (h : Head) (reg : BitVec 3) (q : RawRM)

@[simp] theorem seg_build : (f.build h reg q).fields.seg = h.seg := by cases f <;> rfl

@[simp] theorem addr32_build : (f.build h reg q).fields.addr32 = h.addr32 := by cases f <;> rfl

@[simp] theorem ext_build : (f.build h reg q).fields.ext = h.ext := by cases f <;> rfl

@[simp] theorem rmLen_build : (f.build h reg q).fields.rm.len = (q.vec h.b).len := by cases f <;> cases q <;> rfl

end

theorem regOk_build {ext : Bool} {h : Head} {reg : BitVec 3} (hr : regOk ext (reg4 h.r reg) = true) (f : Form) (q : RawRM) :
    regOk ext (f.build h reg q).fields.reg = true := by
  cases f with
  | cvtpd2pi | cvtps2pi => exact regOk_mmxReg4 ..
  | _ => exact hr

theorem rmVecWf_build {m64 ext : Bool} {h : Head} {q : RawRM} (hq : rmVecWf m64 ext (q.vec h.b) = true) (f : Form)
    (reg : BitVec 3) : rmVecWf m64 ext (f.build h reg q).fields.rm = true := by
  cases f with
  | cvtpi2pd | cvtpi2ps =>
    cases q with
    | reg r => exact regOk_mmxReg4 ..
    | mem m => exact hq
  | _ => exact hq

/-- What the decoder may know of a row's instruction before the ModRM byte (R95, R97, R99 to R102, R111). -/
structure Head.Admitted (m64 : Bool) (f : Form) (h : Head) : Prop where
  addr32 : h.addr32 = true → m64 = true
  rex : f.vex = false → h.ext = true → m64 = true
  wide : f.w = true → m64 = true ∧ h.ext = true
  r : h.r = true → (m64 && (f.vex || h.ext)) = true
  x : h.x = true → (m64 && h.ext) = true
  b : h.b = true → (m64 && h.ext) = true

/-- The length of `0F opcode` with its mandatory prefix and REX, or of a VEX prefix with its opcode (R92). -/
def Form.opcodeLen (f : Form) (ext : Bool) : Nat :=
  if f.vex then (if ext then 3 else 2) + 1 else (if f.pp = 0 then 0 else 1) + ext.toNat + 2

/-- Steps 5 and 6 of R112: the instruction is well formed, and what is read ends where it does. -/
theorem wf_of_decodeOperands {m64 : Bool} {f : Form} {h : Head} {invalid : Bool} {bytes rest : List Byte} {i : Instr}
    (hh : h.Admitted m64 f) (hd : decodeOperands m64 f h invalid bytes = .ok i rest) :
    invalid = false ∧ i.wf m64 = true ∧
      ∃ n, Consumes bytes rest n ∧ i.len = h.seg.toList.length + h.addr32.toNat + f.opcodeLen h.ext + n := by
  obtain ⟨modrm, t, q, rfl, hinv, hq, rfl⟩ := decodeOperands_eq_ok_iff.1 hd
  obtain ⟨hc, hrm⟩ := consumes_of_parseRM hh.x hh.b hq
  refine ⟨hinv, Instr.wf_of_encodable ?_, _, hc.cons modrm, ?_⟩
  · refine ⟨?_, ?_, ?_, ?_, ?_⟩ <;> simp only [addr32_build, ext_build, Form.form_build]
    · exact hh.addr32
    · exact hh.rex
    · exact hh.wide
    · exact regOk_build (regOk_reg4 hh.r _) f q
    · exact rmVecWf_build hrm f _
  · simp only [Instr.len, Fields.len, seg_build, addr32_build, ext_build, rmLen_build, Form.form_build, Form.opcodeLen]
    omega

/-- The number of segment overrides and address-size prefixes read. -/
def Prefixes.optional (p : Prefixes) : Nat := p.seg.toList.length + p.addr32.toNat

/-- Prefixes that can have been read: `67` in 64-bit mode alone, and a mandatory prefix that has a `pp` value (R94, R95). -/
structure Prefixes.Admitted (m64 : Bool) (p : Prefixes) : Prop where
  addr32 : p.addr32 = true → m64 = true
  mandatory : p.mandatory ≠ some 0

/-- A key that selects a row with `W = 1` has `W = 1` (R111). -/
theorem w_of_key {vex w l : Bool} {pp : BitVec 2} {opMap : BitVec 5} {op : Byte} {f : Form}
    (h : decodeKey vex w l pp opMap op &&& f.mask = f.bits) (hw : f.w = true) : w = true := by
  cases w with
  | true => rfl
  | false => exact absurd (hw.symm.trans (w_of_selectForm (selectForm_eq_some_iff.2 h))) (by decide)

/-- Step 4 of R112 for the legacy shape. -/
theorem wf_of_decodeLegacyOpcode {m64 : Bool} {p : Prefixes} {rex : Option Byte} {bytes rest : List Byte} {i : Instr}
    (hp : p.Admitted m64) (hrex : rex.isSome = true → m64 = true)
    (hd : decodeLegacyOpcode m64 p rex bytes = .ok i rest) :
    p.lock = false ∧ i.wf m64 = true ∧ ∃ n, Consumes bytes rest n ∧
      i.len = p.optional + p.mandatory.isSome.toNat + rex.isSome.toNat + 1 + n := by
  obtain ⟨op, t, rfl, hf, ho⟩ := decodeLegacyOpcode_eq_ok_iff.1 hd
  have hv := vex_of_key hf
  have hext : ∀ k, (rex.getD 0#8).getLsbD k = true → (m64 && rex.isSome) = true := by
    intro k hk
    cases rex with
    | none => simp at hk
    | some b => simp [hrex rfl]
  have hh : (p.legacyHead rex).Admitted m64 i.fields.form :=
    ⟨hp.addr32, fun _ => hrex, fun hw => Bool.and_eq_true_iff.1 (hext 3 (w_of_key hf hw)),
      fun hr => by
      rw [hv]
      exact hext 2 hr, hext 1, hext 0⟩
  obtain ⟨hlock, hwf, n, hc, hlen⟩ := wf_of_decodeOperands hh ho
  have hpp : (if i.fields.form.pp = 0 then 0 else 1) = p.mandatory.isSome.toNat := by
    rw [pp_of_key hf]
    have hne := hp.mandatory
    cases hm : p.mandatory with
    | none => rfl
    | some pp =>
      rw [hm] at hne
      exact if_neg fun h0 => hne (congrArg some h0)
  refine ⟨hlock, hwf, _, hc.cons op, ?_⟩
  rw [hlen, Form.opcodeLen, hv, if_neg (by decide), hpp, Prefixes.legacyHead, Prefixes.optional]
  dsimp only
  omega

/-- Step 4 of R112 for the VEX shape. -/
theorem wf_of_decodeVexOpcode {m64 : Bool} {p : Prefixes} {misplaced three : Bool} {rxb : BitVec 3} {opMap : BitVec 5}
    {wvlp : Byte} {bytes rest : List Byte} {i : Instr} (hp : p.Admitted m64)
    (htwo : three = false → wvlp.getLsbD 7 = false ∧ rxb.getLsbD 1 = true ∧ rxb.getLsbD 0 = true)
    (hd : decodeVexOpcode m64 p misplaced three rxb opMap wvlp bytes = .ok i rest) :
    misplaced = false ∧ i.wf m64 = true ∧ ∃ n, Consumes bytes rest n ∧
      i.len = p.optional + (if three then 3 else 2) + n := by
  obtain ⟨op, t, rfl, hf, ho⟩ := decodeVexOpcode_eq_ok_iff.1 hd
  have hv := vex_of_key hf
  have hh : (p.vexHead m64 three rxb).Admitted m64 i.fields.form := by
    refine ⟨hp.addr32, fun hv' => absurd (hv.symm.trans hv') (by decide), fun hw => ?_, fun hr => ?_, fun hx => ?_,
      fun hb => ?_⟩
    · have hw := w_of_key hf hw
      cases three <;> simp_all [Prefixes.vexHead]
    · simp_all [Prefixes.vexHead]
    · cases three <;> simp_all [Prefixes.vexHead]
    · cases three <;> simp_all [Prefixes.vexHead]
  obtain ⟨hinv, hwf, n, hc, hlen⟩ := wf_of_decodeOperands hh ho
  refine ⟨(Bool.or_eq_false_iff.1 hinv).1, hwf, _, hc.cons op, ?_⟩
  rw [hlen, Form.opcodeLen, hv, if_pos rfl, Prefixes.vexHead, Prefixes.optional]
  dsimp only
  omega

/-- A VEX prefix that may stand where it does has nothing but optional prefixes before it (R101). -/
theorem vexAllowed_eq_true_iff {p : Prefixes} {rex : Option Byte} :
    vexAllowed p rex = true ↔ p.mandatory = none ∧ p.lock = false ∧ rex = none := by
  simp [vexAllowed, and_assoc]

/-- Step 3 of R112 for the two-byte prefix, which has no `W`, `X` and `B`. -/
theorem wf_of_decodeVex2 {m64 : Bool} {p : Prefixes} {rex : Option Byte} {bytes rest : List Byte} {i : Instr}
    (hp : p.Admitted m64) (hd : decodeVex2 m64 p rex bytes = .ok i rest) :
    vexAllowed p rex = true ∧ i.wf m64 = true ∧ ∃ n, Consumes bytes rest n ∧ i.len = p.optional + 1 + n := by
  have hbits : ∀ b : Byte, (0#1 ++ b.extractLsb' 0 7 : Byte).getLsbD 7 = false ∧
      (b.extractLsb' 7 1 ++ 3#2 : BitVec 3).getLsbD 1 = true ∧ (b.extractLsb' 7 1 ++ 3#2 : BitVec 3).getLsbD 0 = true := by
    decide
  unfold decodeVex2 at hd
  split at hd
  · cases hd
  split at hd
  · cases hd
  · obtain ⟨hallowed, hwf, n, hc, hlen⟩ := wf_of_decodeVexOpcode hp (fun _ => hbits _) hd
    exact ⟨by simpa using hallowed, hwf, _, hc.cons _, by simp only [hlen, Bool.false_eq_true, if_false]; omega⟩

/-- Step 3 of R112 for the three-byte prefix. -/
theorem wf_of_decodeVex3 {m64 : Bool} {p : Prefixes} {rex : Option Byte} {bytes rest : List Byte} {i : Instr}
    (hp : p.Admitted m64) (hd : decodeVex3 m64 p rex bytes = .ok i rest) :
    vexAllowed p rex = true ∧ i.wf m64 = true ∧ ∃ n, Consumes bytes rest n ∧ i.len = p.optional + 1 + n := by
  unfold decodeVex3 at hd
  split at hd
  · cases hd
  split at hd
  · cases hd
  split at hd
  · cases hd
  · obtain ⟨hallowed, hwf, n, hc, hlen⟩ := wf_of_decodeVexOpcode hp (fun h : true = false => absurd h (by decide)) hd
    exact ⟨by simpa using hallowed, hwf, _, (hc.cons _).cons _, by simp only [hlen, if_true]; omega⟩

/-- Steps 3 to 6 of R112. -/
theorem wf_of_decodeEscape {m64 : Bool} {p : Prefixes} {rex : Option Byte} {bytes rest : List Byte} {i : Instr}
    (hp : p.Admitted m64) (hrex : rex.isSome = true → m64 = true)
    (hd : decodeEscape m64 p rex bytes = .ok i rest) :
    p.lock = false ∧ i.wf m64 = true ∧ ∃ n, Consumes bytes rest n ∧
      i.len = p.optional + p.mandatory.isSome.toNat + rex.isSome.toNat + n := by
  have hvex : ∀ {b : Byte} {t : List Byte},
      (vexAllowed p rex = true ∧ i.wf m64 = true ∧ ∃ n, Consumes t rest n ∧ i.len = p.optional + 1 + n) →
      p.lock = false ∧ i.wf m64 = true ∧ ∃ n, Consumes (b :: t) rest n ∧
        i.len = p.optional + p.mandatory.isSome.toNat + rex.isSome.toNat + n := by
    rintro b t ⟨hallowed, hwf, n, hc, hlen⟩
    obtain ⟨hm, hlock, hr⟩ := vexAllowed_eq_true_iff.1 hallowed
    refine ⟨hlock, hwf, _, hc.cons b, ?_⟩
    simp only [hlen, hm, hr, Option.isSome_none, Bool.toNat_false]
    omega
  unfold decodeEscape at hd
  split at hd
  · cases hd
  split at hd
  · obtain ⟨hlock, hwf, n, hc, hlen⟩ := wf_of_decodeLegacyOpcode hp hrex hd
    exact ⟨hlock, hwf, _, hc.cons _, by omega⟩
  split at hd
  · exact hvex (wf_of_decodeVex2 hp hd)
  split at hd
  · exact hvex (wf_of_decodeVex3 hp hd)
  · split at hd <;> cases hd

/-- Steps 2 to 6 of R112. -/
theorem wf_of_decodeRex {m64 : Bool} {p : Prefixes} {bytes rest : List Byte} {i : Instr} (hp : p.Admitted m64)
    (hd : decodeRex m64 p bytes = .ok i rest) :
    p.lock = false ∧ i.wf m64 = true ∧ ∃ n, Consumes bytes rest n ∧
      i.len = p.optional + p.mandatory.isSome.toNat + n := by
  unfold decodeRex at hd
  split at hd
  · cases hd
  split at hd
  · rename_i hrex
    obtain ⟨hlock, hwf, n, hc, hlen⟩ := wf_of_decodeEscape hp (fun _ => (Bool.and_eq_true_iff.1 hrex).1) hd
    exact ⟨hlock, hwf, _, hc.cons _, by simp only [hlen, Option.isSome_some, Bool.toNat_true]; omega⟩
  · simpa using wf_of_decodeEscape (rex := none) hp (by simp) hd

/-! ### The legacy prefixes -/

/-- The number of prefixes read, LOCK apart. -/
def Prefixes.count (p : Prefixes) : Nat := p.optional + p.mandatory.isSome.toNat

/-- The `pp` value of a mandatory prefix is not 0 (R94). -/
theorem ne_zero_of_prefixRole {b : Byte} {pp : BitVec 2} (h : prefixRole b = some (.mandatory pp)) : pp ≠ 0 := by
  rintro rfl
  revert b
  decide

/-- A prefix byte that is read, where no LOCK has been read in the end. -/
theorem admitted_of_read {m64 : Bool} {b : Byte} {role : PrefixRole} (hb : prefixRole b = some role) {p q : Prefixes}
    (h : p.read m64 role = .ok q) (hp : p.Admitted m64) :
    q.Admitted m64 ∧ (q.lock = false → p.lock = false ∧ q.count = p.count + 1) := by
  cases role with
  | lock =>
    cases h
    exact ⟨⟨hp.addr32, hp.mandatory⟩, nofun⟩
  | mandatory pp =>
    simp only [Prefixes.read] at h
    split_ifs at h with hm
    cases h
    refine ⟨⟨hp.addr32, fun h0 => ne_zero_of_prefixRole hb (Option.some.inj h0)⟩, fun hlock => ⟨hlock, ?_⟩⟩
    simp only [Prefixes.count, Prefixes.optional, Option.isSome_some, Bool.eq_false_iff.2 hm, Bool.toNat_true,
      Bool.toNat_false]
  | segment s =>
    simp only [Prefixes.read] at h
    split_ifs at h with hs
    cases h
    refine ⟨⟨hp.addr32, hp.mandatory⟩, fun hlock => ⟨hlock, ?_⟩⟩
    have hnone : p.seg = none := by simpa using hs
    simp only [Prefixes.count, Prefixes.optional, hnone, Option.toList_some, Option.toList_none, List.length_singleton,
      List.length_nil]
    omega
  | addressSize =>
    simp only [Prefixes.read] at h
    split_ifs at h with hm ha
    cases h
    refine ⟨⟨fun _ => by simpa using hm, hp.mandatory⟩, fun hlock => ⟨hlock, ?_⟩⟩
    simp only [Prefixes.count, Prefixes.optional, Bool.eq_false_iff.2 ha, Bool.toNat_true, Bool.toNat_false]
    omega

/-- Step 1 of R112: without LOCK, the bytes read are the prefixes found. -/
theorem admitted_of_scanPrefixes {m64 : Bool} {p q : Prefixes} {bytes t : List Byte} (hp : p.Admitted m64)
    (h : scanPrefixes m64 p bytes = .ok (q, t)) :
    q.Admitted m64 ∧ (q.lock = false → p.lock = false ∧ ∃ n, Consumes bytes t n ∧ q.count = p.count + n) := by
  induction bytes generalizing p with
  | nil =>
    cases h
    exact ⟨hp, fun hlock => ⟨hlock, 0, .zero _, rfl⟩⟩
  | cons b bytes ih =>
    cases hb : prefixRole b with
    | none =>
      rw [scanPrefixes_of_no_role hb] at h
      cases h
      exact ⟨hp, fun hlock => ⟨hlock, 0, .zero _, rfl⟩⟩
    | some role =>
      obtain ⟨p', hr, hs⟩ := (scanPrefixes_of_role_eq_ok_iff hb).1 h
      obtain ⟨hp', hread⟩ := admitted_of_read hb hr hp
      obtain ⟨hq, hscan⟩ := ih hp' hs
      refine ⟨hq, fun hlock => ?_⟩
      obtain ⟨hlock', n, hc, hn⟩ := hscan hlock
      obtain ⟨hlock, hone⟩ := hread hlock'
      exact ⟨hlock, _, hc.cons b, by omega⟩

theorem Consumes.trans {a b c : List Byte} {m n : Nat} (h : Consumes a b m) (h' : Consumes b c n) :
    Consumes a c (m + n) := by
  obtain ⟨u, rfl, rfl⟩ := h
  obtain ⟨v, rfl, rfl⟩ := h'
  exact ⟨u ++ v, (List.append_assoc ..).symm, List.length_append⟩

/-- What the decoder answers is well formed, and it consumes its length (R92, R112). -/
theorem wf_of_decode {m64 : Bool} {bytes rest : List Byte} {i : Instr} (hd : decode m64 bytes = .ok i rest) :
    i.wf m64 = true ∧ Consumes bytes rest i.len := by
  unfold decode at hd
  split at hd
  · cases hd
  · rename_i p t hs
    obtain ⟨hp, hscan⟩ := admitted_of_scanPrefixes (m64 := m64) (p := .empty) ⟨nofun, nofun⟩ hs
    obtain ⟨hlock, hwf, n, hc, hlen⟩ := wf_of_decodeRex hp hd
    obtain ⟨-, k, hk, hcount⟩ := hscan hlock
    have hk0 : p.optional + p.mandatory.isSome.toNat = k := by
      have hempty : Prefixes.empty.count = 0 := rfl
      rw [hempty, Nat.zero_add] at hcount
      exact hcount
    rw [hlen, hk0]
    exact ⟨hwf, hk.trans hc⟩

/-- Every instruction is at least three bytes long (R92). -/
theorem Instr.three_le_len (i : Instr) : 3 ≤ i.len := by
  rw [Instr.len, Fields.len]
  split_ifs <;> omega

end Sys2Proof

namespace Sys2Proof.Machine

/-- Settles O2: stage by stage, the bytes read are the parts that `ilen` counts, and their fields are those an encoding exists
for. -/
theorem decodedInstructionIsWellFormedAndIlenLong : Obligations.DecodedInstructionIsWellFormedAndIlenLong := by
  intro m64 bytes i rest hd
  obtain ⟨hwf, hc⟩ := wf_of_decode hd
  obtain ⟨hle, hrest⟩ := consumes_iff.1 hc
  exact ⟨hwf, hle, hrest, i.three_le_len, fieldsLen_le i.fields⟩

end Sys2Proof.Machine
end

section
/-! A fetch that stops before the instruction ends (R73, R92): more bytes do not change an answer, the bytes before the end have
none, and whether they do depends on no byte that only makes an encoding `#UD`. -/

namespace Sys2Proof

/-! ### More bytes do not change an answer -/

/-- The answer with more bytes behind it. -/
def Decoded.extend (y : List Byte) : Decoded → Decoded
  | .ok i rest => .ok i (rest ++ y)
  | .invalidOpcode => .invalidOpcode
  | .refused r => .refused r
  | .short => .short

theorem takeDisp32_append {t rest : List Byte} {d : BitVec 32} (h : takeDisp32 t = some (d, rest)) (y : List Byte) :
    takeDisp32 (t ++ y) = some (d, rest ++ y) := by
  unfold takeDisp32 at h
  split at h
  · cases h
    rfl
  · cases h

theorem takeDisp_append {mod : BitVec 2} {t rest : List Byte} {d : Disp} (h : takeDisp mod t = some (d, rest))
    (y : List Byte) : takeDisp mod (t ++ y) = some (d, rest ++ y) := by
  unfold takeDisp at h ⊢
  split_ifs at h ⊢
  · cases h
    rfl
  · cases t with
    | nil => cases h
    | cons b t =>
      cases h
      rfl
  · simp only [Option.map_eq_some_iff, Prod.mk.injEq, Prod.exists] at h ⊢
    obtain ⟨v, u, hv, rfl, rfl⟩ := h
    exact ⟨v, _, takeDisp32_append hv y, rfl, rfl⟩

theorem parseSib_append {x b : Bool} {mod : BitVec 2} {t rest : List Byte} {m : Mem}
    (h : parseSib x b mod t = some (m, rest)) (y : List Byte) : parseSib x b mod (t ++ y) = some (m, rest ++ y) := by
  cases t with
  | nil => cases h
  | cons sb t =>
    simp only [parseSib, List.cons_append] at h ⊢
    split_ifs at h ⊢
    all_goals
      simp only [Option.map_eq_some_iff, Prod.mk.injEq, Prod.exists] at h ⊢
      obtain ⟨d, u, hd, rfl, rfl⟩ := h
    · exact ⟨d, _, takeDisp32_append hd y, rfl, rfl⟩
    · exact ⟨d, _, takeDisp_append hd y, rfl, rfl⟩

theorem parseRM_append {m64 x b : Bool} {mod : BitVec 2} {rm : BitVec 3} {t rest : List Byte} {q : RawRM}
    (h : parseRM m64 x b mod rm t = some (q, rest)) (y : List Byte) :
    parseRM m64 x b mod rm (t ++ y) = some (q, rest ++ y) := by
  unfold parseRM at h ⊢
  by_cases hmod : mod = 3
  · rw [if_pos hmod] at h ⊢
    cases h
    rfl
  rw [if_neg hmod] at h ⊢
  split_ifs at h ⊢
  all_goals
    simp only [Option.map_eq_some_iff, Prod.mk.injEq, Prod.exists] at h ⊢
    obtain ⟨d, u, hd, rfl, rfl⟩ := h
  · exact ⟨d, _, parseSib_append hd y, rfl, rfl⟩
  · exact ⟨d, _, takeDisp32_append hd y, rfl, rfl⟩
  · exact ⟨d, _, takeDisp32_append hd y, rfl, rfl⟩
  · exact ⟨d, _, takeDisp_append hd y, rfl, rfl⟩

section
variable (m64 : Bool) (p : Prefixes) (rex : Option Byte) (y : List Byte)

theorem decodeOperands_append (f : Form) (h : Head) (invalid : Bool) (t : List Byte) :
    decodeOperands m64 f h invalid t = .short ∨
      decodeOperands m64 f h invalid (t ++ y) = (decodeOperands m64 f h invalid t).extend y := by
  cases t with
  | nil => exact .inl rfl
  | cons modrm t =>
    simp only [decodeOperands, List.cons_append]
    cases hq : parseRM m64 h.x h.b (modrm.extractLsb' 6 2) (modrm.extractLsb' 0 3) t with
    | none => exact .inl rfl
    | some q =>
      right
      rw [parseRM_append (q := q.1) (rest := q.2) hq y]
      cases invalid <;> rfl

theorem decodeLegacyOpcode_append (t : List Byte) :
    decodeLegacyOpcode m64 p rex t = .short ∨
      decodeLegacyOpcode m64 p rex (t ++ y) = (decodeLegacyOpcode m64 p rex t).extend y := by
  cases t with
  | nil => exact .inl rfl
  | cons op t =>
    simp only [decodeLegacyOpcode, List.cons_append]
    split
    · exact .inr rfl
    · exact decodeOperands_append ..

theorem decodeVexOpcode_append (misplaced three : Bool) (rxb : BitVec 3) (opMap : BitVec 5) (wvlp : Byte) (t : List Byte) :
    decodeVexOpcode m64 p misplaced three rxb opMap wvlp t = .short ∨
      decodeVexOpcode m64 p misplaced three rxb opMap wvlp (t ++ y) =
        (decodeVexOpcode m64 p misplaced three rxb opMap wvlp t).extend y := by
  cases t with
  | nil => exact .inl rfl
  | cons op t =>
    simp only [decodeVexOpcode, List.cons_append]
    split
    · cases misplaced <;> exact .inr rfl
    · exact decodeOperands_append ..

theorem decodeVex2_append (t : List Byte) :
    decodeVex2 m64 p rex t = .short ∨ decodeVex2 m64 p rex (t ++ y) = (decodeVex2 m64 p rex t).extend y := by
  cases t with
  | nil => exact .inl rfl
  | cons b1 t =>
    simp only [decodeVex2, List.cons_append]
    split
    · exact .inr rfl
    · exact decodeVexOpcode_append ..

theorem decodeVex3_append (t : List Byte) :
    decodeVex3 m64 p rex t = .short ∨ decodeVex3 m64 p rex (t ++ y) = (decodeVex3 m64 p rex t).extend y := by
  cases t with
  | nil => exact .inl rfl
  | cons b1 t =>
    simp only [decodeVex3, List.cons_append]
    split
    · exact .inr rfl
    · cases t with
      | nil => exact .inl rfl
      | cons b2 t => exact decodeVexOpcode_append ..

theorem decodeEscape_append (t : List Byte) :
    decodeEscape m64 p rex t = .short ∨ decodeEscape m64 p rex (t ++ y) = (decodeEscape m64 p rex t).extend y := by
  cases t with
  | nil => exact .inl rfl
  | cons b t =>
    simp only [decodeEscape, List.cons_append]
    split_ifs
    · exact decodeLegacyOpcode_append ..
    · exact decodeVex2_append ..
    · exact decodeVex3_append ..
    · exact .inr rfl
    · exact .inr rfl

theorem decodeRex_append (t : List Byte) :
    decodeRex m64 p t = .short ∨ decodeRex m64 p (t ++ y) = (decodeRex m64 p t).extend y := by
  cases t with
  | nil => exact .inl rfl
  | cons b t =>
    simp only [decodeRex, List.cons_append]
    split_ifs
    · exact decodeEscape_append ..
    · exact decodeEscape_append m64 p none y (b :: t)

end

/-- What the encoder writes after the prefixes has no answer before its end. -/
theorem decodeRex_of_tail_eq {m64 : Bool} {i : Instr} (h : i.wf m64 = true) {t z : List Byte}
    (ht : i.fields.tail = t ++ z) (hz : z ≠ []) : decodeRex m64 i.fields.prefixes t = .short := by
  have hd := decodeRex_tail h false []
  rw [List.append_nil, ht] at hd
  rcases decodeRex_append m64 i.fields.prefixes z t with hs | hs
  · exact hs
  · have hext : (decodeRex m64 i.fields.prefixes t).extend z = .ok i [] := hs.symm.trans hd
    cases hx : decodeRex m64 i.fields.prefixes t with
    | short => rfl
    | ok j rest =>
      rw [hx] at hext
      simp only [Decoded.extend, Decoded.ok.injEq, List.append_eq_nil_iff] at hext
      exact absurd hext.2.2 hz
    | invalidOpcode => rw [hx] at hext; cases hext
    | refused r => rw [hx] at hext; cases hext

/-! ### What an answer's coming does not depend on -/

theorem decodeOperands_short {m64 : Bool} {f : Form} {h h' : Head} {invalid invalid' : Bool} {t : List Byte}
    (hd : decodeOperands m64 f h invalid t = .short) (hx : h.x = h'.x) (hb : h.b = h'.b) :
    decodeOperands m64 f h' invalid' t = .short := by
  cases t with
  | nil => rfl
  | cons modrm t =>
    simp only [decodeOperands, hx, hb] at hd ⊢
    split at hd
    · rfl
    · cases invalid <;> cases hd

/-- LOCK makes an encoding `#UD`, and does not change how long it is. -/
theorem decodeLegacyOpcode_lock_short {m64 : Bool} {p : Prefixes} {rex : Option Byte} {t : List Byte}
    (h : decodeLegacyOpcode m64 p rex t = .short) (lock : Bool) :
    decodeLegacyOpcode m64 { p with lock := lock } rex t = .short := by
  cases t with
  | nil => rfl
  | cons op t =>
    simp only [decodeLegacyOpcode] at h ⊢
    split at h
    · cases h
    · exact decodeOperands_short h rfl rfl

/-- Nothing before a VEX prefix changes how long the instruction is (R101). -/
theorem decodeVexOpcode_short {m64 : Bool} {p : Prefixes} {misplaced three : Bool} {rxb : BitVec 3} {opMap : BitVec 5}
    {wvlp : Byte} {t : List Byte} (h : decodeVexOpcode m64 p misplaced three rxb opMap wvlp t = .short) (p' : Prefixes)
    (misplaced' : Bool) : decodeVexOpcode m64 p' misplaced' three rxb opMap wvlp t = .short := by
  cases t with
  | nil => rfl
  | cons op t =>
    simp only [decodeVexOpcode] at h ⊢
    split at h
    · cases misplaced <;> cases h
    · exact decodeOperands_short h rfl rfl

theorem decodeVex2_short {m64 : Bool} {p : Prefixes} {rex : Option Byte} {t : List Byte}
    (h : decodeVex2 m64 p rex t = .short) (p' : Prefixes) (rex' : Option Byte) : decodeVex2 m64 p' rex' t = .short := by
  cases t with
  | nil => rfl
  | cons b1 t =>
    simp only [decodeVex2] at h ⊢
    split_ifs at h ⊢
    exact decodeVexOpcode_short h ..

theorem decodeVex3_short {m64 : Bool} {p : Prefixes} {rex : Option Byte} {t : List Byte}
    (h : decodeVex3 m64 p rex t = .short) (p' : Prefixes) (rex' : Option Byte) : decodeVex3 m64 p' rex' t = .short := by
  cases t with
  | nil => rfl
  | cons b1 t =>
    simp only [decodeVex3] at h ⊢
    split_ifs at h ⊢
    cases t with
    | nil => rfl
    | cons b2 t => exact decodeVexOpcode_short h ..

theorem decodeRex_lock_short {m64 : Bool} {p : Prefixes} {t : List Byte} (h : decodeRex m64 p t = .short) (lock : Bool) :
    decodeRex m64 { p with lock := lock } t = .short := by
  have hescape : ∀ {rex t}, decodeEscape m64 p rex t = .short →
      decodeEscape m64 { p with lock := lock } rex t = .short := by
    intro rex t h
    cases t with
    | nil => rfl
    | cons b t =>
      simp only [decodeEscape] at h ⊢
      split_ifs at h ⊢
      · exact decodeLegacyOpcode_lock_short h lock
      · exact decodeVex2_short h ..
      · exact decodeVex3_short h ..
  cases t with
  | nil => rfl
  | cons b t =>
    simp only [decodeRex] at h ⊢
    split_ifs at h ⊢
    · exact hescape h
    · exact hescape h

/-- A text that begins with a VEX prefix is as long after any prefixes and REX. -/
theorem decodeEscape_vex_short {m64 : Bool} {p : Prefixes} {t : List Byte} (h : decodeRex m64 p t = .short)
    (ht : t.head? = some 0xC4#8 ∨ t.head? = some 0xC5#8) (p' : Prefixes) (rex : Option Byte) :
    decodeEscape m64 p' rex t = .short ∧ decodeRex m64 p' t = .short := by
  cases t with
  | nil => simp at ht
  | cons b t =>
    simp only [List.head?_cons, Option.some.injEq] at ht
    rcases ht with rfl | rfl
    · rw [(Machine.decodeRex_vex ..).2] at h ⊢
      exact ⟨by simpa [decodeEscape] using decodeVex3_short h p' rex, decodeVex3_short h p' none⟩
    · rw [(Machine.decodeRex_vex ..).1] at h ⊢
      exact ⟨by simpa [decodeEscape] using decodeVex2_short h p' rex, decodeVex2_short h p' none⟩

end Sys2Proof
end

section
/-! A text cut short before its end, with or without a byte that makes it `#UD` (R73, R96, R101), and the step there. -/

namespace Sys2Proof

/-! ### A cut in the legacy prefixes or after them -/

theorem scanPrefixes_rest_of_prefixes {m64 : Bool} {pre t : List Byte} (hpre : ∀ b ∈ pre, (prefixRole b).isSome = true)
    {p q : Prefixes} (h : scanPrefixes m64 p pre = .ok (q, t)) : t = [] := by
  induction pre generalizing p with
  | nil =>
    cases h
    rfl
  | cons b pre ih =>
    obtain ⟨role, hb⟩ := Option.isSome_iff_exists.1 (hpre b List.mem_cons_self)
    obtain ⟨p', -, hs⟩ := (scanPrefixes_of_role_eq_ok_iff hb).1 h
    exact ih (fun x hx => hpre x (List.mem_cons_of_mem b hx)) hs

/-- Prefix bytes that begin a text which is scanned well can be scanned alone. -/
theorem scanPrefixes_left {m64 : Bool} {pre post t : List Byte} (hpre : ∀ b ∈ pre, (prefixRole b).isSome = true)
    {p q : Prefixes} (h : scanPrefixes m64 p (pre ++ post) = .ok (q, t)) :
    ∃ p', scanPrefixes m64 p pre = .ok (p', []) ∧ scanPrefixes m64 p' post = .ok (q, t) ∧
      ∀ u, scanPrefixes m64 p (pre ++ u) = scanPrefixes m64 p' u := by
  have happ := scanPrefixes_append (m64 := m64) hpre p
  cases hs : scanPrefixes m64 p pre with
  | error r => simp [happ, hs, Except.bind] at h
  | ok x =>
    obtain ⟨p', u⟩ := x
    obtain rfl := scanPrefixes_rest_of_prefixes hpre hs
    rw [happ, hs] at h
    exact ⟨p', rfl, h, fun u => by rw [happ, hs]; rfl⟩

/-- A scan of a text cut in two ends in the first part, or goes on to the cut. -/
theorem scanPrefixes_cut {m64 : Bool} {y z t : List Byte} {p q : Prefixes}
    (h : scanPrefixes m64 p (y ++ z) = .ok (q, t)) :
    ∃ p' u, scanPrefixes m64 p y = .ok (p', u) ∧
      ((u = [] ∧ scanPrefixes m64 p' z = .ok (q, t)) ∨ (u ≠ [] ∧ p' = q ∧ t = u ++ z)) := by
  induction y generalizing p with
  | nil => exact ⟨p, [], rfl, .inl ⟨rfl, h⟩⟩
  | cons b y ih =>
    cases hb : prefixRole b with
    | none =>
      rw [List.cons_append, scanPrefixes_of_no_role hb] at h
      cases h
      exact ⟨q, b :: y, scanPrefixes_of_no_role hb .., .inr ⟨by simp, rfl, rfl⟩⟩
    | some role =>
      obtain ⟨p₁, hr, hs⟩ := (scanPrefixes_of_role_eq_ok_iff hb).1 h
      obtain ⟨p', u, hy, hcut⟩ := ih hs
      exact ⟨p', u, (scanPrefixes_of_role_eq_ok_iff hb).2 ⟨p₁, hr, hy⟩, hcut⟩

/-- Prefix bytes alone are no instruction. -/
theorem decode_prefixes_short {m64 : Bool} {pre post t : List Byte} (hpre : ∀ b ∈ pre, (prefixRole b).isSome = true)
    {q : Prefixes} (h : scanPrefixes m64 .empty (pre ++ post) = .ok (q, t)) : decode m64 pre = .short := by
  obtain ⟨p, hs, -, -⟩ := scanPrefixes_left hpre h
  rw [decode_of_scanPrefixes hs]
  rfl

/-! ### An encoding cut short -/

section
variable {m64 : Bool} {i : Instr} {pre y z : List Byte} (h : i.wf m64 = true) (he : encode i = pre ++ (y ++ z))
include h he

theorem scanPrefixes_of_encode : scanPrefixes m64 .empty (pre ++ (y ++ z)) = .ok (i.fields.prefixes, i.fields.tail) := by
  rw [← he]
  simpa using scanPrefixes_encode (Instr.encodable_of_wf h).addr32 []

/-- A proper prefix of an encoding has no answer (R92). -/
theorem decode_encode_short (hz : z ≠ []) : decode m64 (pre ++ y) = .short := by
  have hs := scanPrefixes_of_encode h he
  rw [← List.append_assoc] at hs
  obtain ⟨p, u, hy, ⟨rfl, -⟩ | ⟨-, rfl, ht⟩⟩ := scanPrefixes_cut hs
  · rw [decode_of_scanPrefixes hy]
    rfl
  · rw [decode_of_scanPrefixes hy, decodeRex_of_tail_eq h ht hz]

variable (hpre : ∀ b ∈ pre, (prefixRole b).isSome = true)
include hpre

/-- A prefix byte put in before the cut: no answer either, if it does not change how long the rest is. -/
theorem decode_insert_short {role : PrefixRole} {g : Prefixes → Prefixes} {P : Prefixes → Prop}
    (hg : Insertable m64 role g P) {b : Byte} (hb : prefixRole b = some role) (hP : P i.fields.prefixes)
    (hshort : ∀ u, u ≠ [] → i.fields.tail = u ++ z → decodeRex m64 (g i.fields.prefixes) u = .short) :
    decode m64 (pre ++ b :: y) = .short := by
  obtain ⟨p, -, hs, hpre'⟩ := scanPrefixes_left hpre (scanPrefixes_of_encode h he)
  obtain ⟨hp, -⟩ := hg.scan_eq_ok hs hP
  have hread : scanPrefixes m64 .empty (pre ++ b :: y) = scanPrefixes m64 (g p) y := by
    rw [hpre', scanPrefixes_of_role hb, hg.read p hp]
    rfl
  obtain ⟨p', u, hy, ⟨rfl, hz⟩ | ⟨hu, rfl, ht⟩⟩ := scanPrefixes_cut hs
  · obtain ⟨hp', -⟩ := hg.scan_eq_ok hz hP
    rw [decode_of_scanPrefixes (hread.trans (hg.scan_eq_ok hy hp').2)]
    rfl
  · rw [decode_of_scanPrefixes (hread.trans (hg.scan_eq_ok hy hP).2), hshort u hu ht]

/-- An encoding with LOCK, cut short (R96). -/
theorem decode_lock_short (hz : z ≠ []) : decode m64 (pre ++ 0xF0#8 :: y) = .short :=
  decode_insert_short h he hpre (insertable_lock m64) rfl trivial fun _ _ ht =>
    decodeRex_lock_short (decodeRex_of_tail_eq h ht hz) true

/-- The encoding of a VEX form with a mandatory prefix, cut short (R101). -/
theorem decode_vex_mandatory_short (hv : i.fields.form.vex = true) {b : Byte} {pp : BitVec 2}
    (hb : prefixRole b = some (.mandatory pp)) (hz : z ≠ []) : decode m64 (pre ++ b :: y) = .short := by
  refine decode_insert_short h he hpre (insertable_mandatory m64 pp) hb (by simp [Fields.prefixes, hv]) fun u hu ht => ?_
  have hhead : u.head? = some 0xC4#8 ∨ u.head? = some 0xC5#8 := by
    have htail : i.fields.tail.head? = some 0xC4#8 ∨ i.fields.tail.head? = some 0xC5#8 := by
      rw [Fields.tail, if_pos hv, Fields.vexTail]
      split <;> simp
    rwa [ht, List.head?_append_of_ne_nil u hu] at htail
  exact (decodeEscape_vex_short (decodeRex_of_tail_eq h ht hz) hhead _ none).2

end

/-- The encoding of a VEX form with REX directly before its VEX prefix, cut short (R101). -/
theorem decode_vex_rex_short {i : Instr} {pre y z : List Byte} (h : i.wf true = true) (he : encode i = pre ++ (y ++ z))
    (hpre : ∀ b ∈ pre, (prefixRole b).isSome = true) {b : Byte} (hb : b.extractLsb' 4 4 = 4#4)
    (hpost : (y ++ z).head? = some 0xC4#8 ∨ (y ++ z).head? = some 0xC5#8) (hz : z ≠ []) :
    decode true (pre ++ b :: y) = .short := by
  obtain ⟨p, -, hs, hpre'⟩ := scanPrefixes_left hpre (scanPrefixes_of_encode h he)
  rw [decode_of_scanPrefixes ((hpre' _).trans (scanPrefixes_of_no_role (prefixRole_of_rex hb) ..))]
  have hrex : decodeRex true p (b :: y) = decodeEscape true p (some b) y := by simp [decodeRex, hb]
  rw [hrex]
  cases y with
  | nil => rfl
  | cons c y =>
    have hc : prefixRole c = none := by
      rcases hpost with hc | hc <;> cases hc <;> rfl
    rw [List.cons_append, scanPrefixes_of_no_role hc, Except.ok.injEq, Prod.mk.injEq] at hs
    exact (decodeEscape_vex_short (decodeRex_of_tail_eq h (t := c :: y) hs.2.symm hz) hpost p (some b)).1

end Sys2Proof

namespace Sys2Proof.Machine

/-! ### The step at a text without an end -/

/-- Where the bytes that can be fetched are no whole instruction, the step ends as the fetch of one more byte does. -/
theorem step_of_short_text {s : State} {k n : Nat} (hm : s.mode.modelled = true) (hk : k + n = 15)
    (below : s.pc.toNat + k ≤ s.addressLimit)
    (admitted : ∀ j, j < k → Admission.answer s.fetchMap (s.pc.toNat + j) = .granted)
    (hd : decode s.mode64 ((List.range k).map fun j => s.mem.read (s.pc.toNat + j)) = .short) {st : Stop}
    (hstop : fetchFrom s (s.pc.toNat + k) n = ([], st)) : step s = st.out := by
  have htext := fetchFrom_text (s := s) (a := s.pc.toNat) (n := n)
    (bytes := (List.range k).map fun j => s.mem.read (s.pc.toNat + j)) (by simpa using below)
    (fun j hj => ⟨admitted j (by simpa using hj), by simp⟩)
  simp only [List.length_map, List.length_range, hstop, List.append_nil, hk] at htext
  have hwindow : fetchWindow s = ((List.range k).map fun j => s.mem.read (s.pc.toNat + j), st) := htext
  rw [step_of_short hm (by rw [decodeAt, hwindow]; exact hd), hwindow]

/-- A fetch of a refused byte stops with its fault (R73). -/
theorem fetchFrom_refused {s : State} {a n : Nat} {f : Fault} (hl : a < s.addressLimit) (hf : fetchFault s a = some f) :
    fetchFrom s a (n + 1) = ([], .fault f) := by
  simp [fetchFrom, Nat.not_le.2 hl, hf]

/-- An encoding with a byte put in after prefix bytes, cut in the prefix bytes or after that byte. -/
theorem decode_take_insert_short {m64 : Bool} {i : Instr} {pre post : List Byte} {b : Byte} {k : Nat}
    (hwf : i.wf m64 = true) (he : encode i = pre ++ post) (hpre : ∀ x ∈ pre, isPrefixByte x = true)
    (hk : k < i.len + 1)
    (hshort : ∀ y z, encode i = pre ++ (y ++ z) → post = y ++ z → z ≠ [] → decode m64 (pre ++ b :: y) = .short) :
    decode m64 ((pre ++ [b] ++ post).take k) = .short := by
  have hlen := length_encode i
  rw [he, List.length_append] at hlen
  rw [List.append_assoc, List.singleton_append]
  rcases Nat.lt_or_ge pre.length k with hlt | hle
  · obtain ⟨n, rfl⟩ : ∃ n, k = pre.length + (n + 1) := ⟨k - pre.length - 1, by omega⟩
    rw [List.take_length_add_append, List.take_succ_cons]
    refine hshort _ (post.drop n) (by rw [List.take_append_drop, he]) (List.take_append_drop ..).symm fun hz => ?_
    have hn := List.drop_eq_nil_iff.1 hz
    omega
  · rw [List.take_append_of_le_length hle]
    refine decode_prefixes_short (post := pre.drop k ++ post) (fun x hx => hpre x (List.mem_of_mem_take hx))
      (scanPrefixes_of_encode (i := i) (y := pre.drop k) (z := post) hwf ?_)
    rw [he, ← List.append_assoc, List.take_append_drop]

/-- Settles O35: the fetch window is cut where the fetch stops, and the decoder has no answer before the end of an
instruction. -/
theorem fetchStopsTheStep : Obligations.FetchStopsTheStep := by
  refine ⟨fun s k hm below admitted hd => ⟨fun p r hk hl ha => ?_, fun hk hl ha => ?_, ?_⟩,
    fun m64 i pre ins post k hwf he hpre hins hk => ?_⟩
  · obtain ⟨n, hn⟩ : ∃ n, k + (n + 1) = 15 := ⟨14 - k, by omega⟩
    exact step_of_short_text hm hn below admitted hd (fetchFrom_refused hl (by simp [fetchFault, ha]))
  · obtain ⟨n, hn⟩ : ∃ n, k + (n + 1) = 15 := ⟨14 - k, by omega⟩
    exact step_of_short_text hm hn below admitted hd (fetchFrom_refused hl (by simp [fetchFault, ha]))
  · rintro rfl
    exact step_of_short_text hm (n := 0) rfl below admitted hd rfl
  · rcases hins with rfl | rfl | ⟨hv, b, rfl, hb⟩ | ⟨hv, rfl, hpost, b, rfl, hb⟩
    · rw [List.append_nil, ← he]
      refine decode_encode_short (pre := []) (z := (encode i).drop k) hwf (by simp) ?_
      simpa [length_encode] using hk
    · exact decode_take_insert_short hwf he hpre hk fun y z he' _ hz => decode_lock_short hwf he' hpre hz
    · obtain ⟨pp, hr⟩ := exists_prefixRole_of_mandatory hb
      exact decode_take_insert_short hwf he hpre hk fun y z he' _ hz => decode_vex_mandatory_short hwf he' hpre hv hr hz
    · exact decode_take_insert_short hwf he hpre hk fun y z he' hyz hz =>
        decode_vex_rex_short hwf he' hpre (of_decide_eq_true hb) (hyz ▸ hpost) hz

end Sys2Proof.Machine
end
